-- ==== Sys2Proof/Word.lean ====
section
/-! DEFINITION. The 32-bit word, the two indices of a core's interpolators (unit and lane) and the presentation of
one operation on the interface (spec/00_scope.md section 5.1, spec/30_encoding.md R54). -/

namespace Sys2Proof

/-- A `u32`: bit 0 is the least significant (00_scope.md section 5.1). -/
abbrev Word := BitVec 32

/-- A unit's instance index `n` in {0, 1} (20_memory.md R33, R34). -/
inductive UnitId
  | unit0
  | unit1
  deriving DecidableEq, Repr, Inhabited

/-- The other unit of the core (00_scope.md R4: two per core). -/
def UnitId.other : UnitId → UnitId
  | .unit0 => .unit1
  | .unit1 => .unit0

/-- The value of the one-bit signal `n` (30_encoding.md R54). -/
def UnitId.toBit : UnitId → BitVec 1
  | .unit0 => 0#1
  | .unit1 => 1#1

/-- The unit that the one-bit signal `n` selects (30_encoding.md R54). -/
def UnitId.ofBit (b : BitVec 1) : UnitId :=
  if b = 0#1 then .unit0 else .unit1

/-- One of the two datapaths of a unit (00_scope.md section 6). -/
inductive Lane
  | lane0
  | lane1
  deriving DecidableEq, Repr, Inhabited

/-- The opposite lane `j = 1 - i` (00_scope.md section 6). -/
def Lane.opposite : Lane → Lane
  | .lane0 => .lane1
  | .lane1 => .lane0

/-- One presentation of an operation on the interface: the instance index, the operation select (format O) and the
data word of a write (30_encoding.md R54). -/
structure Presentation where
  n : BitVec 1
  sel : BitVec 5
  wdata : Word
  deriving DecidableEq, Repr, Inhabited

end Sys2Proof
end

