-- ==== Sys2Proof/Config.lean ====
section
/-! DEFINITION. The construction parameters of the hardware (spec/00_scope.md R2, R3, R4, R6) and the opaque constants
that stand for the two the spec leaves open without a default. No proof can see an opaque constant's value. -/

namespace Sys2Proof

/-- Parameter `GEN` (00_scope.md R2). -/
inductive Gen
  | rp2040
  | rp2350
  deriving DecidableEq, Repr, Inhabited

/-- Parameter `CAP` of one unit (00_scope.md R3). -/
inductive Cap
  | blendCapable
  | clampCapable
  deriving DecidableEq, Repr, Inhabited

/-- Parameter `BLEND_DIV`: the rounding of the signed blend division (00_scope.md R6). -/
inductive BlendDiv
  | trunc
  | floor
  deriving DecidableEq, Repr, Inhabited

/-- The parameters of one core's pair of units, fixed when it is built. `blendUnit` is `CAP_OF` in the one form in
which `CAP_OF(0) != CAP_OF(1)` cannot fail: the unit that is blend-capable (00_scope.md R4). Both units have the same
`GEN` (60_exceptions.md R180). -/
structure Params where
  gen : Gen
  blendUnit : UnitId
  blendDiv : BlendDiv
  deriving DecidableEq, Repr, Inhabited

/-- `CAP_OF(n)` (00_scope.md R4): exactly one unit is blend-capable, the other clamp-capable. -/
def Params.capOf (p : Params) (n : UnitId) : Cap :=
  if n = p.blendUnit then .blendCapable else .clampCapable

namespace Config

/-- The generation of the machine after reset: open (00_scope.md R2; log 17). -/
opaque gen : Gen

/-- The blend-capable unit of the machine after reset: open (00_scope.md R4, 92_eei_decisions.md D5; log 5). -/
opaque blendUnit : UnitId

end Config

end Sys2Proof
end

