-- ==== Sys2Proof/Machine/Params.lean ====
section
/-! DEFINITION. The construction parameter for which the spec states a default: the rounding of the signed blend
division (spec/00_scope.md R6). The two it leaves without one are opaque constants in Config. -/

namespace Sys2Proof.Machine

/-- `BLEND_DIV` of the machine after reset: "the spec's default is `trunc`" (00_scope.md R6, the spec's own decision D8;
UNVERIFIED, unsafe: log 8). -/
def blendDivDefault : BlendDiv := .trunc

end Sys2Proof.Machine
end

