-- ==== Sys2Proof/Machine/State.lean ====
section
/-! DEFINITION. The state of one core's two interpolator units, the interface to their caller, and the reasons a step
can stop (spec/10_state.md, spec/30_encoding.md R54, spec/60_exceptions.md R170, R173). State is plain data. -/

namespace Sys2Proof.Machine

/-- The ten read/write fields of a control record, bits 22:0 of the control word: the part that is architectural state
(10_state.md R14, R15). -/
structure CtrlConfig where
  shift : BitVec 5
  maskLsb : BitVec 5
  maskMsb : BitVec 5
  isSigned : Bool
  crossInput : Bool
  crossResult : Bool
  addRaw : Bool
  forceMsb : BitVec 2
  blend : Bool
  clamp : Bool
  deriving DecidableEq, Repr, Inhabited

/-- A whole control record: the ten read/write fields, the three status bits and the reserved field
(10_state.md R14, 40_codec.md R70). -/
structure ControlRecord extends CtrlConfig where
  overf0 : Bool
  overf1 : Bool
  overf : Bool
  reserved : BitVec 6
  deriving DecidableEq, Repr, Inhabited

/-- The whole mutable state of one unit: seven registers (10_state.md R10, R11). -/
structure InterpUnit where
  accum0 : Word
  accum1 : Word
  base0 : Word
  base1 : Word
  base2 : Word
  ctrl0 : CtrlConfig
  ctrl1 : CtrlConfig
  deriving DecidableEq, Repr, Inhabited

/-- One core's pair of units with its construction parameters (log 17) and the interface to the one caller: the data
word driven by the latest operation (log 19) and the presentations the caller has yet to make, oldest first (log 18). -/
structure State where
  params : Params
  unit0 : InterpUnit
  unit1 : InterpUnit
  rdata : Option Word
  pending : List Presentation
  deriving DecidableEq, Repr

/-- The hardware's exceptions: none. "The list of exception causes is empty" (60_exceptions.md R170). -/
inductive Fault
  deriving DecidableEq, Repr

/-- Why the model takes no step (60_exceptions.md R173); neither spec reason is an event of the hardware. -/
inductive Refusal
  /-- Raised by `exec` for an instruction of the table that has no meaning yet. Safe: it stops. No arm raises it. -/
  | notModelled (mnemonic : String)
  /-- Raised by `step` when the presented select is one of the seven reserved ones, to which the spec gives no meaning
  (30_encoding.md R57; log 3). Safe: it stops. -/
  | reservedSelect (sel : BitVec 5)
  /-- Raised by the nine operations that need the engine while a mask window of unit `n` is inverted, when "the nine
  operations that need the engine have no defined result" (43_read_ops.md R149; log 6). Safe: it stops. -/
  | invertedWindow (n : UnitId)
  deriving DecidableEq, Repr

/-- The control record of control word 0: shift 0, window bit 0 only, all modes off (10_state.md R24). -/
def CtrlConfig.zero : CtrlConfig where
  shift := 0#5
  maskLsb := 0#5
  maskMsb := 0#5
  isSigned := false
  crossInput := false
  crossResult := false
  addRaw := false
  forceMsb := 0#2
  blend := false
  clamp := false

/-- DESIGN CHOICE, unsafe (log 4): `RESET_STATE` is open; this is the instance the spec recommends
(70_reset_and_hazards.md R190, R191). -/
def InterpUnit.reset : InterpUnit where
  accum0 := 0#32
  accum1 := 0#32
  base0 := 0#32
  base1 := 0#32
  base2 := 0#32
  ctrl0 := CtrlConfig.zero
  ctrl1 := CtrlConfig.zero

/-- The machine after reset: both units in `RESET_STATE` (log 4), `GEN` and `CAP_OF` open (logs 17, 5), `BLEND_DIV` at its
default (log 8), no data driven and nothing presented (logs 19, 18). -/
def State.reset : State where
  params := ⟨Config.gen, Config.blendUnit, blendDivDefault⟩
  unit0 := InterpUnit.reset
  unit1 := InterpUnit.reset
  rdata := none
  pending := []

end Sys2Proof.Machine
end

