-- ==== Sys2Proof/Machine/Codec.lean ====
section
/-! DEFINITION. The configuration codec, a pair of total functions between a control word and its record
(spec/40_codec.md R70 to R74, spec/30_encoding.md R50; the bit positions are the spec's decision D1, log 1). -/

namespace Sys2Proof.Machine

/-- `decode(w)`: the fourteen fields of format C, each taken from its bits; nothing is checked or rejected
(40_codec.md R70). -/
def decodeCtrl (w : Word) : ControlRecord where
  shift := w.extractLsb' 0 5
  maskLsb := w.extractLsb' 5 5
  maskMsb := w.extractLsb' 10 5
  isSigned := w.getLsbD 15
  crossInput := w.getLsbD 16
  crossResult := w.getLsbD 17
  addRaw := w.getLsbD 18
  forceMsb := w.extractLsb' 19 2
  blend := w.getLsbD 21
  clamp := w.getLsbD 22
  overf0 := w.getLsbD 23
  overf1 := w.getLsbD 24
  overf := w.getLsbD 25
  reserved := w.extractLsb' 26 6

/-- A field placed with its bit 0 at bit `at_` of the word. -/
def placeField {k : Nat} (f : BitVec k) (at_ : Nat) : Word :=
  f.setWidth 32 <<< at_

/-- `encode(rec)`: every field but `reserved` at its bit position, and 0 in bits 31:26 (40_codec.md R71). -/
def encodeCtrl (r : ControlRecord) : Word :=
  placeField r.shift 0 ||| placeField r.maskLsb 5 ||| placeField r.maskMsb 10
    ||| placeField (BitVec.ofBool r.isSigned) 15 ||| placeField (BitVec.ofBool r.crossInput) 16
    ||| placeField (BitVec.ofBool r.crossResult) 17 ||| placeField (BitVec.ofBool r.addRaw) 18
    ||| placeField r.forceMsb 19 ||| placeField (BitVec.ofBool r.blend) 21
    ||| placeField (BitVec.ofBool r.clamp) 22 ||| placeField (BitVec.ofBool r.overf0) 23
    ||| placeField (BitVec.ofBool r.overf1) 24 ||| placeField (BitVec.ofBool r.overf) 25

/-- What a control write stores: the read/write fields of `decode(w)`; bits 31:23 of `w` are dropped
(10_state.md R15, 40_codec.md R74, 42_write_ops.md R115). -/
def configOfWord (w : Word) : CtrlConfig :=
  (decodeCtrl w).toCtrlConfig

/-- What a control read returns: `encode` of the stored fields with the given flags in the status fields
(40_codec.md R74, 43_read_ops.md R135, R136). -/
def wordOfConfig (c : CtrlConfig) (overf0 overf1 overf : Bool) : Word :=
  encodeCtrl
    { toCtrlConfig := c, overf0 := overf0, overf1 := overf1, overf := overf, reserved := 0#6 }

end Sys2Proof.Machine
end

