-- ==== Sys2Proof/Machine/Bits.lean ====
section
/-! DEFINITION. The primitives of spec/00_scope.md section 5.1: shifts and rotates, bit windows, widenings. -/

namespace Sys2Proof.Machine

/-- `lsr32(x, n)`: logical shift right (00_scope.md section 5.1). -/
def lsr32 (x : Word) (n : BitVec 5) : Word :=
  x >>> n.toNat

/-- `ror32(x, n)`: rotate right; 0 and 31 are ordinary amounts (00_scope.md section 5.1, 41_engine.md R83). -/
def ror32 (x : Word) (n : BitVec 5) : Word :=
  x.rotateRight n.toNat

/-- `rol32(x, n) = ror32(x, (32 - n) mod 32)` (00_scope.md section 5.1). -/
def rol32 (x : Word) (n : BitVec 5) : Word :=
  ror32 x (BitVec.ofNat 5 ((32 - n.toNat) % 32))

/-- `window(l, m)`: the word with exactly bits `l` to `m` set, for `l <= m`. The spec does not define it for `l > m`,
and the engine never asks for it there (00_scope.md section 5.1, 41_engine.md R85). -/
def window (l m : BitVec 5) : Word :=
  BitVec.ofNat 32 (2 ^ (m.toNat + 1) - 2 ^ l.toNat)

/-- `above(m)`: the word with exactly bits `m + 1` to 31 set; `above(31) = 0` (00_scope.md section 5.1). -/
def above (m : BitVec 5) : Word :=
  BitVec.ofNat 32 (2 ^ 32 - 2 ^ (m.toNat + 1))

/-- `s32(v)`: the two's-complement reading (00_scope.md section 5.1). -/
def s32 (v : Word) : Int :=
  v.toInt

/-- A 16-bit half widened to a register: `sext_32` when `signed`, else `zext_32` (42_write_ops.md R119). -/
def widenHalf (signed : Bool) (h : BitVec 16) : Word :=
  if signed then h.signExtend 32 else h.setWidth 32

end Sys2Proof.Machine
end

