-- ==== Sys2Proof/Machine/Operands.lean ====
section
/-! DEFINITION. The operand forms: the registers of a lane, the input, shift, mask and sign-extension stages
(spec/41_engine.md R82 to R84, R89) and the packed data word of `WRITE_BASE01` (spec/30_encoding.md R53). -/

namespace Sys2Proof.Machine

/-- `accum[i]` (10_state.md R12). -/
def InterpUnit.accum (u : InterpUnit) : Lane → Word
  | .lane0 => u.accum0
  | .lane1 => u.accum1

/-- `base[i]` for a lane `i` (10_state.md R13). -/
def InterpUnit.base (u : InterpUnit) : Lane → Word
  | .lane0 => u.base0
  | .lane1 => u.base1

/-- `ctrl[i]` (10_state.md R14). -/
def InterpUnit.ctrl (u : InterpUnit) : Lane → CtrlConfig
  | .lane0 => u.ctrl0
  | .lane1 => u.ctrl1

/-- Step 2, input selection: the lane's own accumulator, or the opposite one with `cross_input` (41_engine.md R82). -/
def laneInput (u : InterpUnit) (i : Lane) : Word :=
  if (u.ctrl i).crossInput then u.accum i.opposite else u.accum i

/-- Step 3, the shift stage, the one place `GEN` matters (41_engine.md R83). -/
def shiftStage (gen : Gen) (x : Word) (n : BitVec 5) : Word :=
  match gen with
  | .rp2040 => lsr32 x n
  | .rp2350 => ror32 x n

/-- `shifted_i` (41_engine.md R83). -/
def laneShifted (gen : Gen) (u : InterpUnit) (i : Lane) : Word :=
  shiftStage gen (laneInput u i) (u.ctrl i).shift

/-- The mask window is in order: `mask_lsb <= mask_msb` (41_engine.md R84, R85). -/
def CtrlConfig.windowInOrder (c : CtrlConfig) : Bool :=
  c.maskLsb.ule c.maskMsb

/-- Both windows of a unit are in order, so the engine has a result (41_engine.md R85). -/
def InterpUnit.windowsInOrder (u : InterpUnit) : Bool :=
  u.ctrl0.windowInOrder && u.ctrl1.windowInOrder

/-- Step 4, `masked_i`: the shifted value inside the window, in place (41_engine.md R84). -/
def laneMasked (gen : Gen) (u : InterpUnit) (i : Lane) : Word :=
  laneShifted gen u i &&& window (u.ctrl i).maskLsb (u.ctrl i).maskMsb

/-- `sign_ext`: all bits above `m` set when bit `m` is set (41_engine.md R89). -/
def signExtendFrom (m : BitVec 5) (x : Word) : Word :=
  if x.getLsbD m.toNat then x ||| above m else x

/-- Step 6, `signed_result_i`, also the value of `peekraw[i]` (41_engine.md R89, R99). -/
def laneSigned (gen : Gen) (u : InterpUnit) (i : Lane) : Word :=
  if (u.ctrl i).isSigned then signExtendFrom (u.ctrl i).maskMsb (laneMasked gen u i)
  else laneMasked gen u i

/-- The half of a packed data word for `base[0]`, bits 15:0 (30_encoding.md R53). -/
def packedLow (v : Word) : BitVec 16 :=
  v.extractLsb' 0 16

/-- The half of a packed data word for `base[1]`, bits 31:16 (30_encoding.md R53). -/
def packedHigh (v : Word) : BitVec 16 :=
  v.extractLsb' 16 16

end Sys2Proof.Machine
end

