-- ==== Sys2Proof/Machine/Flags.lean ====
section
/-! DEFINITION. The unit's only flags, `overf0`, `overf1` and `overf`: functions of the state, never stored
(spec/10_state.md R17, spec/41_engine.md R87). No addition sets a flag (spec/41_engine.md R101). -/

namespace Sys2Proof.Machine

/-- Step 5, `overf_i`: the lane's shifted value has a bit set above `mask_msb`, before the mask (41_engine.md R87). -/
def laneOverflow (gen : Gen) (u : InterpUnit) (i : Lane) : Bool :=
  laneShifted gen u i &&& above (u.ctrl i).maskMsb != 0#32

/-- `overf = overf0 | overf1` (41_engine.md R87). -/
def unitOverflow (gen : Gen) (u : InterpUnit) : Bool :=
  laneOverflow gen u .lane0 || laneOverflow gen u .lane1

end Sys2Proof.Machine
end

