-- ==== Sys2Proof/Machine/Engine.lean ====
section
/-! DEFINITION. The lane computation engine (spec/41_engine.md): a pure function of one unit's registers and the three
parameters. The input, shift, mask and sign-extension stages are in Operands, the flags in Flags. -/

namespace Sys2Proof.Machine

/-- Step 1: clamp is driven by lane 0's flag on a clamp-capable unit only (41_engine.md R81). -/
def doClamp (cap : Cap) (u : InterpUnit) : Bool :=
  u.ctrl0.clamp && cap == .clampCapable

/-- Step 1: blend is driven by lane 1's flag on a blend-capable unit only (41_engine.md R81; log 15). -/
def doBlend (cap : Cap) (u : InterpUnit) : Bool :=
  u.ctrl1.blend && cap == .blendCapable

/-- Step 7, `addresult_i`: with `add_raw` the lane adds its raw input, neither shifted nor masked (41_engine.md R90;
log 13). -/
def laneAdd (gen : Gen) (u : InterpUnit) (i : Lane) : Word :=
  u.base i + (if (u.ctrl i).addRaw then laneInput u i else laneSigned gen u i)

/-- Step 8, the full result: always of the signed results; blend mode drops lane 1's term (41_engine.md R91). -/
def fullResult (gen : Gen) (cap : Cap) (u : InterpUnit) : Word :=
  u.base2 + laneSigned gen u .lane0 + (if doBlend cap u then 0#32 else laneSigned gen u .lane1)

/-- `a < b` in the comparison that `signed` selects (41_engine.md R92). -/
def lessThan (signed : Bool) (a b : Word) : Bool :=
  if signed then decide (s32 a < s32 b) else decide (a.toNat < b.toNat)

/-- Step 9: `x` limited to the range from `lo` to `hi`, the lower bound tested first (41_engine.md R92, R93; the order
for crossed bounds is the spec's decision D7, log 7). -/
def clampTo (signed : Bool) (lo hi x : Word) : Word :=
  if lessThan signed x lo then lo else if lessThan signed hi x then hi else x

/-- `clamp_0` (41_engine.md R92). -/
def clampValue (gen : Gen) (u : InterpUnit) : Word :=
  clampTo u.ctrl0.isSigned u.base0 u.base1 (laneSigned gen u .lane0)

/-- Step 10, `alpha`: bits 7:0 of lane 1's signed result, unsigned whatever `is_signed` says (41_engine.md R94). -/
def blendAlpha (gen : Gen) (u : InterpUnit) : BitVec 8 :=
  (laneSigned gen u .lane1).extractLsb' 0 8

/-- The unsigned blend, in wrapping 64-bit arithmetic on zero-extended bases (41_engine.md R95; the widths are the
spec's decision D21, log 11). -/
def blendUnsigned (base0 base1 : Word) (alpha : BitVec 8) : Word :=
  let b0 : BitVec 64 := base0.setWidth 64
  let b1 : BitVec 64 := base1.setWidth 64
  let p : BitVec 64 := alpha.setWidth 64 * (b1 - b0)
  (b0 + p / 256#64).setWidth 32

/-- The quotient `p / 256` under `BLEND_DIV` (00_scope.md R6, 41_engine.md R95; log 8). -/
def blendQuotient (div : BlendDiv) (p : Int) : Int :=
  match div with
  | .trunc => p.tdiv 256
  | .floor => p.fdiv 256

/-- The signed blend, on two's-complement bases as exact integers (41_engine.md R95; D21, log 11). -/
def blendSigned (div : BlendDiv) (base0 base1 : Word) (alpha : BitVec 8) : Word :=
  BitVec.ofInt 32 (s32 base0 + blendQuotient div (alpha.toNat * (s32 base1 - s32 base0)))

/-- Step 10, `blend_1`, in the arithmetic that lane 1's `is_signed` selects (41_engine.md R95). -/
def blendValue (gen : Gen) (div : BlendDiv) (u : InterpUnit) : Word :=
  if u.ctrl1.isSigned then blendSigned div u.base0 u.base1 (blendAlpha gen u)
  else blendUnsigned u.base0 u.base1 (blendAlpha gen u)

/-- Step 11, `force_i`: the lane's own `force_msb` at bits 29:28 (41_engine.md R96; logs 10, 16). -/
def forceBits (c : CtrlConfig) : Word :=
  c.forceMsb.setWidth 32 <<< 28

/-- The presentation of lane 0: `alpha` without force bits in blend mode (41_engine.md R96, R97; log 12). -/
def lane0Present (gen : Gen) (cap : Cap) (u : InterpUnit) : Word :=
  if doBlend cap u then (blendAlpha gen u).setWidth 32
  else if doClamp cap u then clampValue gen u ||| forceBits u.ctrl0
  else laneAdd gen u .lane0 ||| forceBits u.ctrl0

/-- The presentation of lane 1, which clamp mode never changes (41_engine.md R98). -/
def lane1Present (gen : Gen) (cap : Cap) (div : BlendDiv) (u : InterpUnit) : Word :=
  if doBlend cap u then blendValue gen div u ||| forceBits u.ctrl1
  else laneAdd gen u .lane1 ||| forceBits u.ctrl1

/-- The engine's result record (41_engine.md R100). -/
structure EngineResult where
  peek0 : Word
  peek1 : Word
  peek2 : Word
  peekraw0 : Word
  peekraw1 : Word
  overf0 : Bool
  overf1 : Bool
  overf : Bool
  deriving DecidableEq, Repr

/-- The record of 41_engine.md R99 and R100, for windows in order. -/
def engineResult (gen : Gen) (cap : Cap) (div : BlendDiv) (u : InterpUnit) : EngineResult where
  peek0 := lane0Present gen cap u
  peek1 := lane1Present gen cap div u
  peek2 := fullResult gen cap u
  peekraw0 := laneSigned gen u .lane0
  peekraw1 := laneSigned gen u .lane1
  overf0 := laneOverflow gen u .lane0
  overf1 := laneOverflow gen u .lane1
  overf := unitOverflow gen u

/-- `Engine(S)`: `none` is the token `Unsupported`, for both lanes, while either window is inverted (41_engine.md R85,
R100; log 6). -/
def engine (gen : Gen) (cap : Cap) (div : BlendDiv) (u : InterpUnit) : Option EngineResult :=
  if u.windowsInOrder then some (engineResult gen cap div u) else none

end Sys2Proof.Machine
end

