-- ==== Sys2Proof/Machine/Ops.lean ====
section
/-! DEFINITION. The shared operations over the state: selecting a unit, driving the read data, writing a register of a
unit, reading a stored value, reading the engine's result, and a pop's writeback. The hardware has no exception to take
and none to return from (spec/60_exceptions.md R170, R176), so no operation here does either. -/

namespace Sys2Proof.Machine

/-- The unit at instance index `n` (20_memory.md R34). -/
def State.unit (s : State) : UnitId → InterpUnit
  | .unit0 => s.unit0
  | .unit1 => s.unit1

/-- The state with unit `n` replaced; the other unit is untouched (20_memory.md R34, 60_exceptions.md R180). -/
def State.setUnit (s : State) (n : UnitId) (u : InterpUnit) : State :=
  match n with
  | .unit0 => { s with unit0 := u }
  | .unit1 => { s with unit1 := u }

/-- A read drives `rdata` with the value it returns (30_encoding.md R54). -/
def State.drive (s : State) (v : Word) : State :=
  { s with rdata := some v }

/-- A write does not drive `rdata` (30_encoding.md R54, 42_write_ops.md R109). -/
def State.undrive (s : State) : State :=
  { s with rdata := none }

/-- `Engine(S)` of unit `n` under the machine's parameters (41_engine.md R100). -/
def State.engineOf (s : State) (n : UnitId) : Option EngineResult :=
  engine s.params.gen (s.params.capOf n) s.params.blendDiv (s.unit n)

/-- A write: the registers of unit `n` become what `f` makes of them, in one step, and no data is returned
(42_write_ops.md R109). -/
def writeUnit (n : UnitId) (f : InterpUnit → InterpUnit) (s : State) :
    Host.Outcome State Fault Refusal :=
  .next ((s.setUnit n (f (s.unit n))).undrive)

/-- A read of a stored value: it needs no engine and changes no register (43_read_ops.md R130 to R134, R136). -/
def readStored (n : UnitId) (f : InterpUnit → Word) (s : State) :
    Host.Outcome State Fault Refusal :=
  .next (s.drive (f (s.unit n)))

/-- A read that needs the engine: computed from the present state, no register changed, refused while a window is
inverted (43_read_ops.md R129, R149). -/
def readEngine (n : UnitId) (f : EngineResult → Word) (s : State) :
    Host.Outcome State Fault Refusal :=
  match s.engineOf n with
  | some e => .next (s.drive (f e))
  | none => .refused (.invertedWindow n)

/-- Writeback: both accumulators at once, each from the lane presentation that its own `cross_result` selects
(43_read_ops.md R145; log 14). -/
def writeback (e : EngineResult) (u : InterpUnit) : InterpUnit :=
  { u with
    accum0 := if u.ctrl0.crossResult then e.peek1 else e.peek0
    accum1 := if u.ctrl1.crossResult then e.peek0 else e.peek1 }

/-- A pop: the value is the one computed before the writeback; refused, with no writeback, while a window is inverted
(43_read_ops.md R146 to R149). -/
def popEngine (n : UnitId) (f : EngineResult → Word) (s : State) :
    Host.Outcome State Fault Refusal :=
  match s.engineOf n with
  | some e => .next ((s.setUnit n (writeback e (s.unit n))).drive (f e))
  | none => .refused (.invertedWindow n)

/-- The packed write of both bases: `base[0]` is widened by lane 1's `is_signed` in blend mode and by lane 0's
otherwise, `base[1]` always by lane 1's (42_write_ops.md R119; log 27). -/
def packedBases (cap : Cap) (v : Word) (u : InterpUnit) : InterpUnit :=
  { u with
    base0 := widenHalf (if doBlend cap u then u.ctrl1.isSigned else u.ctrl0.isSigned) (packedLow v)
    base1 := widenHalf u.ctrl1.isSigned (packedHigh v) }

end Sys2Proof.Machine
end

