-- ==== Sys2Proof/Machine/PeekOps.lean ====
section
/-! DEFINITION. `peek` and `peekraw`: reads of the engine's result with no side effect (spec/43_read_ops.md R137 to
R141). -/

namespace Sys2Proof.Machine

/-- `READ_PEEK0`: lane 0's presentation (43_read_ops.md R137). -/
def execReadPeek0 (n : UnitId) (s : State) : Host.Outcome State Fault Refusal :=
  readEngine n (fun e => e.peek0) s

/-- `READ_PEEK1`: lane 1's presentation (43_read_ops.md R138). -/
def execReadPeek1 (n : UnitId) (s : State) : Host.Outcome State Fault Refusal :=
  readEngine n (fun e => e.peek1) s

/-- `READ_PEEK2`: the full result (43_read_ops.md R139). -/
def execReadPeek2 (n : UnitId) (s : State) : Host.Outcome State Fault Refusal :=
  readEngine n (fun e => e.peek2) s

/-- `READ_PEEKRAW0`: lane 0's signed result (43_read_ops.md R140). -/
def execReadPeekraw0 (n : UnitId) (s : State) : Host.Outcome State Fault Refusal :=
  readEngine n (fun e => e.peekraw0) s

/-- `READ_PEEKRAW1`: lane 1's signed result (43_read_ops.md R141). -/
def execReadPeekraw1 (n : UnitId) (s : State) : Host.Outcome State Fault Refusal :=
  readEngine n (fun e => e.peekraw1) s

end Sys2Proof.Machine
end

