-- ==== Sys2Proof/Machine/PopOps.lean ====
section
/-! DEFINITION. The three pops: a result returned, then both accumulators written back (spec/43_read_ops.md R145 to
R148). They differ only in the value returned. -/

namespace Sys2Proof.Machine

/-- `READ_POP0` (43_read_ops.md R146). -/
def execReadPop0 (n : UnitId) (s : State) : Host.Outcome State Fault Refusal :=
  popEngine n (fun e => e.peek0) s

/-- `READ_POP1` (43_read_ops.md R147). -/
def execReadPop1 (n : UnitId) (s : State) : Host.Outcome State Fault Refusal :=
  popEngine n (fun e => e.peek1) s

/-- `READ_POP2`: the full result, with the same writeback of the lane presentations (43_read_ops.md R148; the
writeback is the spec's decision D9, log 9). -/
def execReadPop2 (n : UnitId) (s : State) : Host.Outcome State Fault Refusal :=
  popEngine n (fun e => e.peek2) s

end Sys2Proof.Machine
end

