-- ==== Sys2Proof/Machine/ReadOps.lean ====
section
/-! DEFINITION. The plain reads of the registers and the two control reads (spec/43_read_ops.md R130 to R136). -/

namespace Sys2Proof.Machine

/-- `READ_ACCUM0`: the stored accumulator (43_read_ops.md R130). -/
def execReadAccum0 (n : UnitId) (s : State) : Host.Outcome State Fault Refusal :=
  readStored n (fun u => u.accum0) s

/-- `READ_ACCUM1` (43_read_ops.md R131). -/
def execReadAccum1 (n : UnitId) (s : State) : Host.Outcome State Fault Refusal :=
  readStored n (fun u => u.accum1) s

/-- `READ_BASE0` (43_read_ops.md R132). -/
def execReadBase0 (n : UnitId) (s : State) : Host.Outcome State Fault Refusal :=
  readStored n (fun u => u.base0) s

/-- `READ_BASE1` (43_read_ops.md R133). -/
def execReadBase1 (n : UnitId) (s : State) : Host.Outcome State Fault Refusal :=
  readStored n (fun u => u.base1) s

/-- `READ_BASE2` (43_read_ops.md R134). -/
def execReadBase2 (n : UnitId) (s : State) : Host.Outcome State Fault Refusal :=
  readStored n (fun u => u.base2) s

/-- `READ_CTRL0`: the stored fields with the present flags in bits 25:23; it needs the engine, and the record it
encodes is the present one (43_read_ops.md R135, R149; log 28). -/
def execReadCtrl0 (n : UnitId) (s : State) : Host.Outcome State Fault Refusal :=
  readEngine n (fun e => wordOfConfig (s.unit n).ctrl0 e.overf0 e.overf1 e.overf) s

/-- `READ_CTRL1`: the stored fields; lane 1's status bits are always clear (43_read_ops.md R136). -/
def execReadCtrl1 (n : UnitId) (s : State) : Host.Outcome State Fault Refusal :=
  readStored n (fun u => wordOfConfig u.ctrl1 false false false) s

end Sys2Proof.Machine
end

