-- ==== Sys2Proof/Machine/WriteOps.lean ====
section
/-! DEFINITION. The ten write operations (spec/42_write_ops.md R110 to R119). None is refused, in any state. -/

namespace Sys2Proof.Machine

/-- `WRITE_ACCUM0` (42_write_ops.md R110). -/
def execWriteAccum0 (n : UnitId) (v : Word) (s : State) : Host.Outcome State Fault Refusal :=
  writeUnit n (fun u => { u with accum0 := v }) s

/-- `WRITE_ACCUM1` (42_write_ops.md R111). -/
def execWriteAccum1 (n : UnitId) (v : Word) (s : State) : Host.Outcome State Fault Refusal :=
  writeUnit n (fun u => { u with accum1 := v }) s

/-- `WRITE_BASE0`: all 32 bits as given (42_write_ops.md R112). -/
def execWriteBase0 (n : UnitId) (v : Word) (s : State) : Host.Outcome State Fault Refusal :=
  writeUnit n (fun u => { u with base0 := v }) s

/-- `WRITE_BASE1` (42_write_ops.md R113). -/
def execWriteBase1 (n : UnitId) (v : Word) (s : State) : Host.Outcome State Fault Refusal :=
  writeUnit n (fun u => { u with base1 := v }) s

/-- `WRITE_BASE2` (42_write_ops.md R114). -/
def execWriteBase2 (n : UnitId) (v : Word) (s : State) : Host.Outcome State Fault Refusal :=
  writeUnit n (fun u => { u with base2 := v }) s

/-- `WRITE_CTRL0`: bits 22:0 are stored, an inverted window too; bits 31:23 are dropped (42_write_ops.md R115). -/
def execWriteCtrl0 (n : UnitId) (w : Word) (s : State) : Host.Outcome State Fault Refusal :=
  writeUnit n (fun u => { u with ctrl0 := configOfWord w }) s

/-- `WRITE_CTRL1` (42_write_ops.md R116). -/
def execWriteCtrl1 (n : UnitId) (w : Word) (s : State) : Host.Outcome State Fault Refusal :=
  writeUnit n (fun u => { u with ctrl1 := configOfWord w }) s

/-- `WRITE_ADD0`: the sum wraps and sets no flag (42_write_ops.md R117). -/
def execWriteAdd0 (n : UnitId) (v : Word) (s : State) : Host.Outcome State Fault Refusal :=
  writeUnit n (fun u => { u with accum0 := u.accum0 + v }) s

/-- `WRITE_ADD1` (42_write_ops.md R118). -/
def execWriteAdd1 (n : UnitId) (v : Word) (s : State) : Host.Outcome State Fault Refusal :=
  writeUnit n (fun u => { u with accum1 := u.accum1 + v }) s

/-- `WRITE_BASE01`: both bases in one step, widened by the control records as they are now; it needs no engine result
(42_write_ops.md R119). -/
def execWriteBase01 (n : UnitId) (v : Word) (s : State) : Host.Outcome State Fault Refusal :=
  writeUnit n (packedBases (s.params.capOf n) v) s

end Sys2Proof.Machine
end

