-- ==== Sys2Proof/Syntax.lean ====
section
/-! DEFINITION. The 25 register operations of a unit, one constructor for each row of spec/opcode_table.json
(spec/30_encoding.md R55). An operation names its unit `n` (spec/20_memory.md R34); a write carries its data word whole
(spec/30_encoding.md R56); lane and result indices are part of the operation's name. -/

namespace Sys2Proof

/-- One register operation (30_encoding.md R55). -/
inductive Instr
  | readAccum0 (n : UnitId)
  | readAccum1 (n : UnitId)
  | readBase0 (n : UnitId)
  | readBase1 (n : UnitId)
  | readBase2 (n : UnitId)
  | readPop0 (n : UnitId)
  | readPop1 (n : UnitId)
  | readPop2 (n : UnitId)
  | readPeek0 (n : UnitId)
  | readPeek1 (n : UnitId)
  | readPeek2 (n : UnitId)
  | readCtrl0 (n : UnitId)
  | readCtrl1 (n : UnitId)
  | readPeekraw0 (n : UnitId)
  | readPeekraw1 (n : UnitId)
  | writeAccum0 (n : UnitId) (v : Word)
  | writeAccum1 (n : UnitId) (v : Word)
  | writeBase0 (n : UnitId) (v : Word)
  | writeBase1 (n : UnitId) (v : Word)
  | writeBase2 (n : UnitId) (v : Word)
  | writeCtrl0 (n : UnitId) (w : Word)
  | writeCtrl1 (n : UnitId) (w : Word)
  | writeAdd0 (n : UnitId) (v : Word)
  | writeAdd1 (n : UnitId) (v : Word)
  | writeBase01 (n : UnitId) (v : Word)
  deriving DecidableEq, Repr

/-- The unit an operation touches (20_memory.md R34). -/
def Instr.unitOf : Instr → UnitId
  | .readAccum0 n => n
  | .readAccum1 n => n
  | .readBase0 n => n
  | .readBase1 n => n
  | .readBase2 n => n
  | .readPop0 n => n
  | .readPop1 n => n
  | .readPop2 n => n
  | .readPeek0 n => n
  | .readPeek1 n => n
  | .readPeek2 n => n
  | .readCtrl0 n => n
  | .readCtrl1 n => n
  | .readPeekraw0 n => n
  | .readPeekraw1 n => n
  | .writeAccum0 n _ => n
  | .writeAccum1 n _ => n
  | .writeBase0 n _ => n
  | .writeBase1 n _ => n
  | .writeBase2 n _ => n
  | .writeCtrl0 n _ => n
  | .writeCtrl1 n _ => n
  | .writeAdd0 n _ => n
  | .writeAdd1 n _ => n
  | .writeBase01 n _ => n

/-- The three pops, the only reads that change the state (43_read_ops.md R129). -/
def Instr.isPop : Instr → Bool
  | .readPop0 _ => true
  | .readPop1 _ => true
  | .readPop2 _ => true
  | .readAccum0 _ => false
  | .readAccum1 _ => false
  | .readBase0 _ => false
  | .readBase1 _ => false
  | .readBase2 _ => false
  | .readPeek0 _ => false
  | .readPeek1 _ => false
  | .readPeek2 _ => false
  | .readCtrl0 _ => false
  | .readCtrl1 _ => false
  | .readPeekraw0 _ => false
  | .readPeekraw1 _ => false
  | .writeAccum0 _ _ => false
  | .writeAccum1 _ _ => false
  | .writeBase0 _ _ => false
  | .writeBase1 _ _ => false
  | .writeBase2 _ _ => false
  | .writeCtrl0 _ _ => false
  | .writeCtrl1 _ _ => false
  | .writeAdd0 _ _ => false
  | .writeAdd1 _ _ => false
  | .writeBase01 _ _ => false

/-- The nine operations that need the engine's result (43_read_ops.md R149). -/
def Instr.needsEngine : Instr → Bool
  | .readPop0 _ => true
  | .readPop1 _ => true
  | .readPop2 _ => true
  | .readPeek0 _ => true
  | .readPeek1 _ => true
  | .readPeek2 _ => true
  | .readCtrl0 _ => true
  | .readPeekraw0 _ => true
  | .readPeekraw1 _ => true
  | .readAccum0 _ => false
  | .readAccum1 _ => false
  | .readBase0 _ => false
  | .readBase1 _ => false
  | .readBase2 _ => false
  | .readCtrl1 _ => false
  | .writeAccum0 _ _ => false
  | .writeAccum1 _ _ => false
  | .writeBase0 _ _ => false
  | .writeBase1 _ _ => false
  | .writeBase2 _ _ => false
  | .writeCtrl0 _ _ => false
  | .writeCtrl1 _ _ => false
  | .writeAdd0 _ _ => false
  | .writeAdd1 _ _ => false
  | .writeBase01 _ _ => false

/-- The ten writes (42_write_ops.md); every other operation is a read (43_read_ops.md). -/
def Instr.isWrite : Instr → Bool
  | .writeAccum0 _ _ => true
  | .writeAccum1 _ _ => true
  | .writeBase0 _ _ => true
  | .writeBase1 _ _ => true
  | .writeBase2 _ _ => true
  | .writeCtrl0 _ _ => true
  | .writeCtrl1 _ _ => true
  | .writeAdd0 _ _ => true
  | .writeAdd1 _ _ => true
  | .writeBase01 _ _ => true
  | .readAccum0 _ => false
  | .readAccum1 _ => false
  | .readBase0 _ => false
  | .readBase1 _ => false
  | .readBase2 _ => false
  | .readPop0 _ => false
  | .readPop1 _ => false
  | .readPop2 _ => false
  | .readPeek0 _ => false
  | .readPeek1 _ => false
  | .readPeek2 _ => false
  | .readCtrl0 _ => false
  | .readCtrl1 _ => false
  | .readPeekraw0 _ => false
  | .readPeekraw1 _ => false

end Sys2Proof
end

