-- ==== Sys2Proof/Machine/Dispatch.lean ====
section
/-! DEFINITION. What each of the 25 operations does, one arm per constructor of `Instr` (spec/30_encoding.md R55). -/

namespace Sys2Proof.Machine

/-- One operation of a unit, as one indivisible step (20_memory.md R41). -/
def exec (i : Instr) (s : State) : Host.Outcome State Fault Refusal :=
  match i with
  | .readAccum0 n => Sys2Proof.Machine.execReadAccum0 n s
  | .readAccum1 n => Sys2Proof.Machine.execReadAccum1 n s
  | .readBase0 n => Sys2Proof.Machine.execReadBase0 n s
  | .readBase1 n => Sys2Proof.Machine.execReadBase1 n s
  | .readBase2 n => Sys2Proof.Machine.execReadBase2 n s
  | .readPop0 n => Sys2Proof.Machine.execReadPop0 n s
  | .readPop1 n => Sys2Proof.Machine.execReadPop1 n s
  | .readPop2 n => Sys2Proof.Machine.execReadPop2 n s
  | .readPeek0 n => Sys2Proof.Machine.execReadPeek0 n s
  | .readPeek1 n => Sys2Proof.Machine.execReadPeek1 n s
  | .readPeek2 n => Sys2Proof.Machine.execReadPeek2 n s
  | .readCtrl0 n => Sys2Proof.Machine.execReadCtrl0 n s
  | .readCtrl1 n => Sys2Proof.Machine.execReadCtrl1 n s
  | .readPeekraw0 n => Sys2Proof.Machine.execReadPeekraw0 n s
  | .readPeekraw1 n => Sys2Proof.Machine.execReadPeekraw1 n s
  | .writeAccum0 n v => Sys2Proof.Machine.execWriteAccum0 n v s
  | .writeAccum1 n v => Sys2Proof.Machine.execWriteAccum1 n v s
  | .writeBase0 n v => Sys2Proof.Machine.execWriteBase0 n v s
  | .writeBase1 n v => Sys2Proof.Machine.execWriteBase1 n v s
  | .writeBase2 n v => Sys2Proof.Machine.execWriteBase2 n v s
  | .writeCtrl0 n w => Sys2Proof.Machine.execWriteCtrl0 n w s
  | .writeCtrl1 n w => Sys2Proof.Machine.execWriteCtrl1 n w s
  | .writeAdd0 n v => Sys2Proof.Machine.execWriteAdd0 n v s
  | .writeAdd1 n v => Sys2Proof.Machine.execWriteAdd1 n v s
  | .writeBase01 n v => Sys2Proof.Machine.execWriteBase01 n v s

end Sys2Proof.Machine
end

