-- ==== Sys2Proof/WellFormed.lean ====
section
/-! DEFINITION. What is well formed: an operation select that is not reserved (spec/20_memory.md R32,
spec/30_encoding.md R57). The fields of `Instr` admit no other check: the unit index has one bit and a data word is
any `u32` (spec/00_scope.md R5, spec/30_encoding.md R56, spec/60_exceptions.md R172). -/

namespace Sys2Proof

/-- The seven combinations of direction and port that have no name: read of port 15 (`BASE01`), write to ports 5 to
10 (`POP0..2`, `PEEK0..2`) (20_memory.md R32, 30_encoding.md R57). -/
def selReserved (sel : BitVec 5) : Bool :=
  let port := (sel.extractLsb' 0 4).toNat
  match sel.getLsbD 4 with
  | false => port == 15
  | true => 5 ≤ port && port ≤ 10

/-- A presentation is well formed when its select is one of the 25 of 30_encoding.md R55. -/
def Presentation.wf (p : Presentation) : Bool :=
  !selReserved p.sel

/-- Every term of `Instr` is an operation a caller can issue: a lane or result index is part of the operation's name, a
unit index outside {0, 1} cannot be written down, and no operand is refused (00_scope.md R5, 30_encoding.md R56). -/
def Instr.wf (_ : Instr) : Bool :=
  true

end Sys2Proof
end

