-- ==== Sys2Proof/Decode.lean ====
section
/-! DEFINITION. The decoder and the encoder of format O (spec/30_encoding.md R54, R55, R57; the select values are the
spec's decision D2, log 2), and the host's view of one row of spec/opcode_table.json. -/

namespace Sys2Proof

/-- Why a presentation is no operation. -/
inductive DecodeError
  /-- One of the seven reserved selects (30_encoding.md R57). Safe: the spec gives them no meaning. -/
  | reservedSelect (sel : BitVec 5)
  deriving DecidableEq, Repr

/-- The operation that a presentation stands for. All five bits of `sel` are matched; a read ignores `wdata`
(30_encoding.md R54, R55, 43_read_ops.md R129). -/
def decode (p : Presentation) : Except DecodeError Instr :=
  let n := UnitId.ofBit p.n
  match p.sel.toNat with
  | 0x00 => .ok (.readAccum0 n)
  | 0x01 => .ok (.readAccum1 n)
  | 0x02 => .ok (.readBase0 n)
  | 0x03 => .ok (.readBase1 n)
  | 0x04 => .ok (.readBase2 n)
  | 0x05 => .ok (.readPop0 n)
  | 0x06 => .ok (.readPop1 n)
  | 0x07 => .ok (.readPop2 n)
  | 0x08 => .ok (.readPeek0 n)
  | 0x09 => .ok (.readPeek1 n)
  | 0x0A => .ok (.readPeek2 n)
  | 0x0B => .ok (.readCtrl0 n)
  | 0x0C => .ok (.readCtrl1 n)
  | 0x0D => .ok (.readPeekraw0 n)
  | 0x0E => .ok (.readPeekraw1 n)
  | 0x10 => .ok (.writeAccum0 n p.wdata)
  | 0x11 => .ok (.writeAccum1 n p.wdata)
  | 0x12 => .ok (.writeBase0 n p.wdata)
  | 0x13 => .ok (.writeBase1 n p.wdata)
  | 0x14 => .ok (.writeBase2 n p.wdata)
  | 0x1B => .ok (.writeCtrl0 n p.wdata)
  | 0x1C => .ok (.writeCtrl1 n p.wdata)
  | 0x1D => .ok (.writeAdd0 n p.wdata)
  | 0x1E => .ok (.writeAdd1 n p.wdata)
  | 0x1F => .ok (.writeBase01 n p.wdata)
  | _ => .error (.reservedSelect p.sel)

/-- The presentation of an operation. A read's data word is ignored by the unit; the encoder puts 0 there (log 23). -/
def encode : Instr → Presentation
  | .readAccum0 n => ⟨n.toBit, 0x00#5, 0#32⟩
  | .readAccum1 n => ⟨n.toBit, 0x01#5, 0#32⟩
  | .readBase0 n => ⟨n.toBit, 0x02#5, 0#32⟩
  | .readBase1 n => ⟨n.toBit, 0x03#5, 0#32⟩
  | .readBase2 n => ⟨n.toBit, 0x04#5, 0#32⟩
  | .readPop0 n => ⟨n.toBit, 0x05#5, 0#32⟩
  | .readPop1 n => ⟨n.toBit, 0x06#5, 0#32⟩
  | .readPop2 n => ⟨n.toBit, 0x07#5, 0#32⟩
  | .readPeek0 n => ⟨n.toBit, 0x08#5, 0#32⟩
  | .readPeek1 n => ⟨n.toBit, 0x09#5, 0#32⟩
  | .readPeek2 n => ⟨n.toBit, 0x0A#5, 0#32⟩
  | .readCtrl0 n => ⟨n.toBit, 0x0B#5, 0#32⟩
  | .readCtrl1 n => ⟨n.toBit, 0x0C#5, 0#32⟩
  | .readPeekraw0 n => ⟨n.toBit, 0x0D#5, 0#32⟩
  | .readPeekraw1 n => ⟨n.toBit, 0x0E#5, 0#32⟩
  | .writeAccum0 n v => ⟨n.toBit, 0x10#5, v⟩
  | .writeAccum1 n v => ⟨n.toBit, 0x11#5, v⟩
  | .writeBase0 n v => ⟨n.toBit, 0x12#5, v⟩
  | .writeBase1 n v => ⟨n.toBit, 0x13#5, v⟩
  | .writeBase2 n v => ⟨n.toBit, 0x14#5, v⟩
  | .writeCtrl0 n w => ⟨n.toBit, 0x1B#5, w⟩
  | .writeCtrl1 n w => ⟨n.toBit, 0x1C#5, w⟩
  | .writeAdd0 n v => ⟨n.toBit, 0x1D#5, v⟩
  | .writeAdd1 n v => ⟨n.toBit, 0x1E#5, v⟩
  | .writeBase01 n v => ⟨n.toBit, 0x1F#5, v⟩

/-- The presentation of a row of spec/opcode_table.json whose bits are `w`: the table gives bits to `sel` alone
(4:0); the instance index and the data word are separate inputs and have every bit 0 here (log 23). -/
def tablePresentation (w : Nat) : Presentation :=
  ⟨0#1, BitVec.ofNat 5 w, 0#32⟩

/-- The operation the decoder reads from a table row's bits `w`. The row has 5 bits; the bits that fill its last byte
stand for no signal, and a row with one of them set is no select (log 23). -/
def decodeTableWord (nbits w : Nat) : Option Instr :=
  if w < 32 ∧ w < 2 ^ nbits then
    match decode (tablePresentation w) with
    | .ok i => some i
    | .error _ => none
  else none

end Sys2Proof
end

