-- ==== Sys2Proof/Machine/Fetch.lean ====
section
/-! DEFINITION. Where a step takes its operation from: the oldest presentation the caller has pending (spec/10_state.md
R22, spec/20_memory.md R40; log 18). -/

namespace Sys2Proof.Machine

/-- The presentation the caller makes next, and the state once it has been made; `none` when the caller presents
nothing. -/
def nextPresentation (s : State) : Option (Presentation × State) :=
  match s.pending with
  | [] => none
  | p :: rest => some (p, { s with pending := rest })

/-- The state in which the caller presents `p` before all else (log 18). -/
def presentNext (p : Presentation) (s : State) : State :=
  { s with pending := p :: s.pending }

end Sys2Proof.Machine
end

