-- ==== Sys2Proof/Machine/Step.lean ====
section
/-! DEFINITION. One step: the caller's next presentation is decoded and performed (spec/20_memory.md R40, R41,
spec/30_encoding.md R54). -/

namespace Sys2Proof.Machine

/-- One presentation is one operation and one step. A reserved select is refused (30_encoding.md R57). With nothing
presented the unit is quiescent and nothing changes (10_state.md R11; log 18). -/
def step (s : State) : Host.Outcome State Fault Refusal :=
  match nextPresentation s with
  | none => .next s
  | some (p, s') =>
    match decode p with
    | .ok i => exec i s'
    | .error (.reservedSelect sel) => .refused (.reservedSelect sel)

/-- The state in which the very next step performs the opcode-table row with bits `w`: unit 0, data word 0
(logs 18, 23). `nbits` is not needed: the select is 5 bits. -/
def State.withFetchWord (s : State) (_nbits w : Nat) : State :=
  presentNext (tablePresentation w) s

end Sys2Proof.Machine
end

