-- ==== Sys2Proof/Machine/Text.lean ====
section
/-! DEFINITION. The textual form of operations (spec/30_encoding.md R61 to R63) and the pseudo-operations `state`,
`dump`, the compare forms, `save` and `restore`, each an expansion into operations of a unit (spec/44_pseudo_ops.md
R160 to R168). None of this is state or hardware: it is what a caller writes, and what it answers with the values read
(log 24). -/

namespace Sys2Proof.Machine

/-- The 18 register names (20_memory.md R31, 30_encoding.md R61). -/
inductive RegName
  | accum0
  | accum1
  | base0
  | base1
  | base2
  | ctrl0
  | ctrl1
  | pop0
  | pop1
  | pop2
  | peek0
  | peek1
  | peek2
  | peekraw0
  | peekraw1
  | add0
  | add1
  | base01
  deriving DecidableEq, Repr

/-- `READ_<reg>` on unit `n`, for the fifteen names a `read` accepts (30_encoding.md R61). -/
def RegName.readInstr (n : UnitId) : RegName → Option Instr
  | .accum0 => some (.readAccum0 n)
  | .accum1 => some (.readAccum1 n)
  | .base0 => some (.readBase0 n)
  | .base1 => some (.readBase1 n)
  | .base2 => some (.readBase2 n)
  | .ctrl0 => some (.readCtrl0 n)
  | .ctrl1 => some (.readCtrl1 n)
  | .pop0 => some (.readPop0 n)
  | .pop1 => some (.readPop1 n)
  | .pop2 => some (.readPop2 n)
  | .peek0 => some (.readPeek0 n)
  | .peek1 => some (.readPeek1 n)
  | .peek2 => some (.readPeek2 n)
  | .peekraw0 => some (.readPeekraw0 n)
  | .peekraw1 => some (.readPeekraw1 n)
  | .add0 => none
  | .add1 => none
  | .base01 => none

/-- `WRITE_<reg>` of `v` on unit `n`, for the ten names a `write` accepts (30_encoding.md R61, 44_pseudo_ops.md R164). -/
def RegName.writeInstr (n : UnitId) (v : Word) : RegName → Option Instr
  | .accum0 => some (.writeAccum0 n v)
  | .accum1 => some (.writeAccum1 n v)
  | .base0 => some (.writeBase0 n v)
  | .base1 => some (.writeBase1 n v)
  | .base2 => some (.writeBase2 n v)
  | .ctrl0 => some (.writeCtrl0 n v)
  | .ctrl1 => some (.writeCtrl1 n v)
  | .add0 => some (.writeAdd0 n v)
  | .add1 => some (.writeAdd1 n v)
  | .base01 => some (.writeBase01 n v)
  | .pop0 => none
  | .pop1 => none
  | .pop2 => none
  | .peek0 => none
  | .peek1 => none
  | .peek2 => none
  | .peekraw0 => none
  | .peekraw1 => none

/-- The seven words of a `state` line and of a snapshot, the last two as control words (44_pseudo_ops.md R160, R166). -/
structure UnitWords where
  accum0 : Word
  accum1 : Word
  base0 : Word
  base1 : Word
  base2 : Word
  ctrl0 : Word
  ctrl1 : Word
  deriving DecidableEq, Repr

/-- One line of the notation (30_encoding.md R61, 44_pseudo_ops.md R160 to R163); `expected` is the compare form. -/
inductive Line
  | write (n : UnitId) (r : RegName) (v : Word)
  | read (n : UnitId) (r : RegName) (expected : Option Word)
  | state (n : UnitId) (w : UnitWords)
  | dump (n : UnitId) (expected : Option (List Word))
  deriving DecidableEq, Repr

/-- A register name stands on a command that accepts it, and a `dump` compares all twelve values
(30_encoding.md R61, 44_pseudo_ops.md R162, R168). -/
def Line.wf : Line → Bool
  | .write n r v => (r.writeInstr n v).isSome
  | .read n r _ => (r.readInstr n).isSome
  | .state _ _ => true
  | .dump _ none => true
  | .dump _ (some es) => es.length == 12

/-- The seven writes of `state` and of `restore` (44_pseudo_ops.md R160, R166). -/
def stateWrites (n : UnitId) (w : UnitWords) : List Instr :=
  [.writeAccum0 n w.accum0, .writeAccum1 n w.accum1, .writeBase0 n w.base0, .writeBase1 n w.base1,
    .writeBase2 n w.base2, .writeCtrl0 n w.ctrl0, .writeCtrl1 n w.ctrl1]

/-- The twelve reads of `dump`, in the spec's order (44_pseudo_ops.md R161; the order is its decision D18, log 24). -/
def dumpReads (n : UnitId) : List Instr :=
  [.readAccum0 n, .readAccum1 n, .readBase0 n, .readBase1 n, .readBase2 n, .readCtrl0 n, .readCtrl1 n,
    .readPeek0 n, .readPeek1 n, .readPeek2 n, .readPeekraw0 n, .readPeekraw1 n]

/-- The operations a line stands for; a line that is not well formed reaches no unit (44_pseudo_ops.md R168). -/
def Line.expand : Line → List Instr
  | .write n r v => (r.writeInstr n v).toList
  | .read n r _ => (r.readInstr n).toList
  | .state n w => stateWrites n w
  | .dump n expected => if (Line.dump n expected).wf then dumpReads n else []

/-- A line's operations, presented by the caller after everything already pending (44_pseudo_ops.md R167). -/
def presentLine (l : Line) (s : State) : State :=
  { s with pending := s.pending ++ l.expand.map encode }

/-- The state after a list of operations and the values its reads returned, in order. -/
structure Performed where
  state : State
  values : List Word
  deriving DecidableEq, Repr

/-- A list of operations performed one after the other, stopping at the first refusal (44_pseudo_ops.md R167,
60_exceptions.md R173). -/
def performAll : List Instr → State → Host.Outcome Performed Fault Refusal
  | [], s => .next ⟨s, []⟩
  | i :: is, s =>
    match exec i s with
    | .next t =>
      match performAll is t with
      | .next r => .next ⟨r.state, t.rdata.toList ++ r.values⟩
      | .fault f => .fault f
      | .refused r => .refused r
    | .fault f => .fault f
    | .refused r => .refused r

/-- An answer line, as far as the spec uses them (30_encoding.md R63). -/
inductive Answer
  | data (values : List Word)
  | ok
  | diff (xors : List Word)
  deriving DecidableEq, Repr

/-- The answer to values read: `data` without expectations; else `ok` when every value agrees, else `diff` with the
exclusive-or of each (30_encoding.md R63, 44_pseudo_ops.md R162, R163). -/
def answerTo (expected : Option (List Word)) (values : List Word) : Answer :=
  match expected with
  | none => .data values
  | some es => if values = es then .ok else .diff (List.zipWith (· ^^^ ·) values es)

/-- The answer of a line that read `values`; the source gives none for `write` and `state` (91_not_in_source.md N18), and
its `syntax` answers to lines that are not well formed are out of scope (00_scope.md section 3; log 24). -/
def Line.answer (l : Line) (values : List Word) : Option Answer :=
  match l with
  | .write _ _ _ => none
  | .read _ _ expected =>
    if l.wf then some (answerTo (expected.map fun e => [e]) values) else none
  | .state _ _ => none
  | .dump _ expected => if l.wf then some (answerTo expected values) else none

/-- The seven values of `save()`: the stored registers, the control words with their status bits clear
(44_pseudo_ops.md R166). -/
def saveUnit (n : UnitId) (s : State) : UnitWords where
  accum0 := (s.unit n).accum0
  accum1 := (s.unit n).accum1
  base0 := (s.unit n).base0
  base1 := (s.unit n).base1
  base2 := (s.unit n).base2
  ctrl0 := wordOfConfig (s.unit n).ctrl0 false false false
  ctrl1 := wordOfConfig (s.unit n).ctrl1 false false false

/-- The operations of `restore(snapshot)` (44_pseudo_ops.md R166). -/
def restoreUnit (n : UnitId) (w : UnitWords) : List Instr :=
  stateWrites n w

/-! ### Reading and writing the characters of a line -/

/-- Why a line is rejected; it then reaches no unit (44_pseudo_ops.md R168). -/
inductive TextError
  | unknownCommand
  | wrongTokenCount
  | unknownUnit
  | unknownRegister
  | registerOnWrongCommand
  | badLiteral
  deriving DecidableEq, Repr

/-- The tokens of a line, `acc` being the reversed token under way (30_encoding.md R61). -/
def tokensFrom (acc : List Char) : List Char → List (List Char)
  | [] => if acc.isEmpty then [] else [acc.reverse]
  | c :: cs =>
    if c = ' ' then
      if acc.isEmpty then tokensFrom [] cs else acc.reverse :: tokensFrom [] cs
    else tokensFrom (c :: acc) cs

/-- The value of a digit below `radix`, in either case. -/
def digitValue (radix : Nat) (c : Char) : Option Nat :=
  let k := c.toNat
  let v :=
    if 48 ≤ k ∧ k ≤ 57 then k - 48
    else if 97 ≤ k ∧ k ≤ 102 then k - 87
    else if 65 ≤ k ∧ k ≤ 70 then k - 55
    else radix
  if v < radix then some v else none

/-- The number that digits spell after the value `acc`; `none` when one of them is no digit. -/
def digitsValue (radix acc : Nat) : List Char → Option Nat
  | [] => some acc
  | c :: cs =>
    match digitValue radix c with
    | some v => digitsValue radix (acc * radix + v) cs
    | none => none

/-- A numeric literal, decimal or hexadecimal with `0x` or `0X`, fully consumed; without a digit or above 2^32 - 1 it is
rejected (30_encoding.md R62; log 24). -/
def parseLiteral (t : List Char) : Option Word :=
  let value :=
    match t with
    | '0' :: 'x' :: d :: ds => digitsValue 16 0 (d :: ds)
    | '0' :: 'X' :: d :: ds => digitsValue 16 0 (d :: ds)
    | d :: ds => digitsValue 10 0 (d :: ds)
    | [] => none
  match value with
  | some k => if k < 2 ^ 32 then some (BitVec.ofNat 32 k) else none
  | none => none

/-- A unit index token, 0 or 1 (30_encoding.md R61). -/
def parseUnit : List Char → Option UnitId
  | ['0'] => some .unit0
  | ['1'] => some .unit1
  | _ => none

/-- A register name token, case-insensitive (30_encoding.md R61). -/
def parseReg (t : List Char) : Option RegName :=
  match t.map Char.toLower with
  | ['a', 'c', 'c', 'u', 'm', '0'] => some .accum0
  | ['a', 'c', 'c', 'u', 'm', '1'] => some .accum1
  | ['b', 'a', 's', 'e', '0'] => some .base0
  | ['b', 'a', 's', 'e', '1'] => some .base1
  | ['b', 'a', 's', 'e', '2'] => some .base2
  | ['c', 't', 'r', 'l', '0'] => some .ctrl0
  | ['c', 't', 'r', 'l', '1'] => some .ctrl1
  | ['p', 'o', 'p', '0'] => some .pop0
  | ['p', 'o', 'p', '1'] => some .pop1
  | ['p', 'o', 'p', '2'] => some .pop2
  | ['p', 'e', 'e', 'k', '0'] => some .peek0
  | ['p', 'e', 'e', 'k', '1'] => some .peek1
  | ['p', 'e', 'e', 'k', '2'] => some .peek2
  | ['p', 'e', 'e', 'k', 'r', 'a', 'w', '0'] => some .peekraw0
  | ['p', 'e', 'e', 'k', 'r', 'a', 'w', '1'] => some .peekraw1
  | ['a', 'd', 'd', '0'] => some .add0
  | ['a', 'd', 'd', '1'] => some .add1
  | ['b', 'a', 's', 'e', '0', '1'] => some .base01
  | _ => none

/-- All literals of a list of tokens. -/
def parseLiterals : List (List Char) → Option (List Word)
  | [] => some []
  | t :: ts =>
    match parseLiteral t, parseLiterals ts with
    | some v, some vs => some (v :: vs)
    | _, _ => none

/-- A `read` or `write` of a named register with the literals after it; the name must stand on a command that accepts
it (30_encoding.md R61, 44_pseudo_ops.md R163, R164). -/
def parseRegLine (isWrite : Bool) (n : UnitId) (r : RegName) (vs : List Word) : Except TextError Line :=
  match isWrite, vs with
  | true, [v] =>
    if (Line.write n r v).wf then .ok (.write n r v) else .error .registerOnWrongCommand
  | false, [] =>
    if (Line.read n r none).wf then .ok (.read n r none) else .error .registerOnWrongCommand
  | false, [e] =>
    if (Line.read n r (some e)).wf then .ok (.read n r (some e)) else .error .registerOnWrongCommand
  | _, _ => .error .wrongTokenCount

/-- A `state` or `dump` line from its literals (44_pseudo_ops.md R160 to R162). -/
def parseUnitLine (isState : Bool) (n : UnitId) (vs : List Word) : Except TextError Line :=
  match isState, vs with
  | true, [a0, a1, b0, b1, b2, c0, c1] => .ok (.state n ⟨a0, a1, b0, b1, b2, c0, c1⟩)
  | true, _ => .error .wrongTokenCount
  | false, [] => .ok (.dump n none)
  | false, es => if es.length = 12 then .ok (.dump n (some es)) else .error .wrongTokenCount

/-- The tokens after a command that takes a register name. -/
def parseRegTokens (isWrite : Bool) : List (List Char) → Except TextError Line
  | nt :: rt :: ts =>
    match parseUnit nt, parseReg rt, parseLiterals ts with
    | none, _, _ => .error .unknownUnit
    | _, none, _ => .error .unknownRegister
    | _, _, none => .error .badLiteral
    | some n, some r, some vs => parseRegLine isWrite n r vs
  | _ => .error .wrongTokenCount

/-- The tokens after `state` or `dump`. -/
def parseUnitTokens (isState : Bool) : List (List Char) → Except TextError Line
  | nt :: ts =>
    match parseUnit nt, parseLiterals ts with
    | none, _ => .error .unknownUnit
    | _, none => .error .badLiteral
    | some n, some vs => parseUnitLine isState n vs
  | _ => .error .wrongTokenCount

/-- One line of text (30_encoding.md R61, R62; rejections 44_pseudo_ops.md R168). -/
def parseLine (line : List Char) : Except TextError Line :=
  match tokensFrom [] line with
  | ['w', 'r', 'i', 't', 'e'] :: ts => parseRegTokens true ts
  | ['r', 'e', 'a', 'd'] :: ts => parseRegTokens false ts
  | ['s', 't', 'a', 't', 'e'] :: ts => parseUnitTokens true ts
  | ['d', 'u', 'm', 'p'] :: ts => parseUnitTokens false ts
  | _ => .error .unknownCommand

/-- A lower-case hexadecimal digit. -/
def hexDigit (k : Nat) : Char :=
  if k < 10 then Char.ofNat (48 + k) else Char.ofNat (87 + k)

/-- The hexadecimal digits of a word from the most significant, leading zeros dropped, but for the last digit. -/
def hexDigits (v : Word) : List Char :=
  let ks := [28, 24, 20, 16, 12, 8, 4].map (fun at_ => v.toNat / 2 ^ at_ % 16)
  (ks.dropWhile (· == 0) ++ [v.toNat % 16]).map hexDigit

/-- The spelling of an answer's value: `0x`, lower-case digits, no leading zeros (30_encoding.md R63, decision D19). -/
def spellWord (v : Word) : List Char :=
  '0' :: 'x' :: hexDigits v

/-- A word list as answer text, each value after a space. -/
def spellWords : List Word → List Char
  | [] => []
  | v :: vs => ' ' :: (spellWord v ++ spellWords vs)

/-- An answer line's characters (30_encoding.md R63). -/
def spellAnswer : Answer → List Char
  | .data vs => ['d', 'a', 't', 'a'] ++ spellWords vs
  | .ok => ['o', 'k']
  | .diff xs => ['d', 'i', 'f', 'f'] ++ spellWords xs

end Sys2Proof.Machine
end

