-- ==== Sys2Proof/Safety.lean ====
section
/-! DEFINITION. What a safe run is, in the terms claims use: the caller keeps the contract of spec/70_reset_and_hazards.md
R205 and spec/30_encoding.md R57, so that no step is refused. -/

namespace Sys2Proof.Machine

/-- The engine of both units has a result (41_engine.md R85). -/
def State.windowsInOrder (s : State) : Bool :=
  s.unit0.windowsInOrder && s.unit1.windowsInOrder

/-- An operation that leaves every window in order that was so: a control write names an ordered window
(70_reset_and_hazards.md R205). -/
def keepsWindows : Instr → Bool
  | .writeCtrl0 _ w => (configOfWord w).windowInOrder
  | .writeCtrl1 _ w => (configOfWord w).windowInOrder
  | .readAccum0 _ => true
  | .readAccum1 _ => true
  | .readBase0 _ => true
  | .readBase1 _ => true
  | .readBase2 _ => true
  | .readPop0 _ => true
  | .readPop1 _ => true
  | .readPop2 _ => true
  | .readPeek0 _ => true
  | .readPeek1 _ => true
  | .readPeek2 _ => true
  | .readCtrl0 _ => true
  | .readCtrl1 _ => true
  | .readPeekraw0 _ => true
  | .readPeekraw1 _ => true
  | .writeAccum0 _ _ => true
  | .writeAccum1 _ _ => true
  | .writeBase0 _ _ => true
  | .writeBase1 _ _ => true
  | .writeBase2 _ _ => true
  | .writeAdd0 _ _ => true
  | .writeAdd1 _ _ => true
  | .writeBase01 _ _ => true

/-- A presentation the caller's contract allows: a select that is no reserved one, and no inverted window written. -/
def presentationKeepsContract (p : Presentation) : Bool :=
  match decode p with
  | .ok i => keepsWindows i
  | .error _ => false

/-- The caller's contract: windows in order now, and nothing pending that breaks it (70_reset_and_hazards.md R205,
30_encoding.md R57). -/
def State.callerContract (s : State) : Bool :=
  s.windowsInOrder && s.pending.all presentationKeepsContract

/-- What one operation on unit `n` leaves behind when it makes that unit `u` and drives `d`: the other unit, the
parameters and what the caller has pending are unchanged (20_memory.md R34, R41; the frame of every operation). -/
def UnitBecomes (n : UnitId) (u : InterpUnit) (d : Option Word) (s t : State) : Prop :=
  t.unit n = u ∧ t.unit n.other = s.unit n.other ∧ t.params = s.params ∧ t.pending = s.pending ∧ t.rdata = d

/-- `k` steps from `s` end in a next state. -/
def runsFor (k : Nat) (s : State) : Prop :=
  ∃ t, Sys2Proof.core.run k s = .next t

end Sys2Proof.Machine
end

