-- ==== Sys2Proof/Certificates/Slice0/Obligations.lean ====
section
/-! DEFINITION. The statements for the provers, each an `Obligations.<Name>`: encodings, codec, primitives, engine,
operations, whole-machine rules, steps, reset and the pseudo-operations. "log <n>" is notes/assumptions/<n>.md. -/

open Sys2Proof Sys2Proof.Machine

/-! ### The encoding of an operation -/

/-- Decode and encode agree, both ways. The select values are the spec's decision D2 (log 2); that a read's encoding has
data word 0 is the model's choice (log 23). -/
def Obligations.DecodeOfEncodeIsTheOperation : Prop :=
  (∀ i : Instr, i.wf = true → (encode i).wf = true ∧ decode (encode i) = .ok i) ∧
  ∀ (p : Presentation) (i : Instr), decode p = .ok i →
    (encode i).n = p.n ∧ (encode i).sel = p.sel ∧ (i.isWrite = true → (encode i).wdata = p.wdata)

/-- All 32 selects are accounted for: 25 decode, seven are refused by name. The seven and their treatment are the
spec's decisions D2 and D3 (logs 2, 3). -/
def Obligations.EverySelectIsAnOperationOrReserved : Prop :=
  ∀ p : Presentation,
    (p.wf = true ↔ ∃ i, decode p = .ok i) ∧
    (p.wf = false ↔ decode p = .error (.reservedSelect p.sel)) ∧
    (p.wf = false ↔
      p.sel ∈ [0x0F#5, 0x15#5, 0x16#5, 0x17#5, 0x18#5, 0x19#5, 0x1A#5])

/-- A few presentations written out from the spec's table (decision D2, log 2), one or more for each family. -/
def Obligations.PresentationsDecodeAsTheTableSays : Prop :=
  decode ⟨0#1, 0b00000#5, 0#32⟩ = .ok (.readAccum0 .unit0) ∧
  decode ⟨1#1, 0b00011#5, 7#32⟩ = .ok (.readBase1 .unit1) ∧
  decode ⟨1#1, 0b00111#5, 0#32⟩ = .ok (.readPop2 .unit1) ∧
  decode ⟨0#1, 0b01000#5, 0#32⟩ = .ok (.readPeek0 .unit0) ∧
  decode ⟨0#1, 0b01011#5, 0#32⟩ = .ok (.readCtrl0 .unit0) ∧
  decode ⟨0#1, 0b01101#5, 0#32⟩ = .ok (.readPeekraw0 .unit0) ∧
  decode ⟨1#1, 0b10001#5, 5#32⟩ = .ok (.writeAccum1 .unit1 5#32) ∧
  decode ⟨0#1, 0b10100#5, 9#32⟩ = .ok (.writeBase2 .unit0 9#32) ∧
  decode ⟨0#1, 0b11011#5, 0x407C00#32⟩ = .ok (.writeCtrl0 .unit0 0x407C00#32) ∧
  decode ⟨0#1, 0b11101#5, 3#32⟩ = .ok (.writeAdd0 .unit0 3#32) ∧
  decode ⟨0#1, 0b11111#5, 0x8000FFFF#32⟩ = .ok (.writeBase01 .unit0 0x8000FFFF#32)

/-! ### The codec -/

/-- 40_codec.md R72, both laws (that the reserved field is bits 31:26 is decision D1, log 1). -/
def Obligations.CtrlCodecRoundTrip : Prop :=
  (∀ w : Word, encodeCtrl (decodeCtrl w) = w &&& 0x03FFFFFF#32) ∧
  ∀ r : ControlRecord, decodeCtrl (encodeCtrl r) = { r with reserved := 0#6 }

/-- A decoded field is the unsigned integer its bits spell, and an encoded word is the sum of its placed fields,
whatever the reserved field holds (40_codec.md R70, R71; the positions are the spec's decision D1, log 1). -/
def Obligations.CtrlFieldsAreTheirArithmetic : Prop :=
  (∀ w : Word,
    (decodeCtrl w).shift.toNat = w.toNat % 2 ^ 5 ∧
    (decodeCtrl w).maskLsb.toNat = w.toNat / 2 ^ 5 % 2 ^ 5 ∧
    (decodeCtrl w).maskMsb.toNat = w.toNat / 2 ^ 10 % 2 ^ 5 ∧
    (decodeCtrl w).isSigned.toNat = w.toNat / 2 ^ 15 % 2 ∧
    (decodeCtrl w).crossInput.toNat = w.toNat / 2 ^ 16 % 2 ∧
    (decodeCtrl w).crossResult.toNat = w.toNat / 2 ^ 17 % 2 ∧
    (decodeCtrl w).addRaw.toNat = w.toNat / 2 ^ 18 % 2 ∧
    (decodeCtrl w).forceMsb.toNat = w.toNat / 2 ^ 19 % 2 ^ 2 ∧
    (decodeCtrl w).blend.toNat = w.toNat / 2 ^ 21 % 2 ∧
    (decodeCtrl w).clamp.toNat = w.toNat / 2 ^ 22 % 2 ∧
    (decodeCtrl w).overf0.toNat = w.toNat / 2 ^ 23 % 2 ∧
    (decodeCtrl w).overf1.toNat = w.toNat / 2 ^ 24 % 2 ∧
    (decodeCtrl w).overf.toNat = w.toNat / 2 ^ 25 % 2 ∧
    (decodeCtrl w).reserved.toNat = w.toNat / 2 ^ 26) ∧
  ∀ r : ControlRecord,
    (encodeCtrl r).toNat =
      r.shift.toNat + r.maskLsb.toNat * 2 ^ 5 + r.maskMsb.toNat * 2 ^ 10 + r.isSigned.toNat * 2 ^ 15
        + r.crossInput.toNat * 2 ^ 16 + r.crossResult.toNat * 2 ^ 17 + r.addRaw.toNat * 2 ^ 18
        + r.forceMsb.toNat * 2 ^ 19 + r.blend.toNat * 2 ^ 21 + r.clamp.toNat * 2 ^ 22
        + r.overf0.toNat * 2 ^ 23 + r.overf1.toNat * 2 ^ 24 + r.overf.toNat * 2 ^ 25

/-! ### The primitives of 00_scope.md section 5.1 -/

/-- `lsr32` and `ror32` are the arithmetic of the notation. -/
def Obligations.ShiftAndRotateAreTheirArithmetic : Prop :=
  ∀ (x : Word) (n : BitVec 5),
    (lsr32 x n).toNat = x.toNat / 2 ^ n.toNat ∧
    (ror32 x n).toNat =
      (x.toNat / 2 ^ n.toNat + x.toNat % 2 ^ n.toNat * 2 ^ (32 - n.toNat)) % 2 ^ 32

/-- 41_engine.md R102, with the rotate left by one spelled out in arithmetic. -/
def Obligations.RotateIdentities : Prop :=
  ∀ x : Word,
    ror32 x 0#5 = x ∧ ror32 x 31#5 = rol32 x 1#5 ∧
    (rol32 x 1#5).toNat = x.toNat * 2 % 2 ^ 32 + x.toNat / 2 ^ 31

/-- `window(l, m)` has exactly bits `l` to `m` set and `above(m)` exactly bits `m + 1` to 31. -/
def Obligations.WindowAndAboveSetExactlyTheirBits : Prop :=
  (∀ (l m : BitVec 5) (k : Nat), l.toNat ≤ m.toNat →
    (window l m).getLsbD k = (decide (l.toNat ≤ k) && decide (k ≤ m.toNat))) ∧
  ∀ (m : BitVec 5) (k : Nat),
    (above m).getLsbD k = (decide (m.toNat < k) && decide (k < 32))

/-! ### The engine -/

/-- 41_engine.md R82, R83: the lane's input by `cross_input`, shifted or rotated; a shift of 0 is the identity in both
generations. -/
def Obligations.ShiftedIsTheSelectedInputShiftedOrRotated : Prop :=
  ∀ (g : Gen) (u : InterpUnit),
    laneInput u .lane0 = (if u.ctrl0.crossInput then u.accum1 else u.accum0) ∧
    laneInput u .lane1 = (if u.ctrl1.crossInput then u.accum0 else u.accum1) ∧
    ∀ i : Lane,
      laneShifted .rp2040 u i = lsr32 (laneInput u i) (u.ctrl i).shift ∧
      laneShifted .rp2350 u i = ror32 (laneInput u i) (u.ctrl i).shift ∧
      ((u.ctrl i).shift = 0#5 → laneShifted g u i = laneInput u i)

/-- 41_engine.md R84, R86: inside the window the masked value has the shifted value's bits, in place; outside it nothing;
and it depends on the lane's input, shift amount and window and on the generation only. -/
def Obligations.MaskedValueIsTheShiftedValueInItsWindow : Prop :=
  ∀ (g : Gen) (u : InterpUnit) (i : Lane), (u.ctrl i).windowInOrder = true →
    (∀ k : Nat, (u.ctrl i).maskLsb.toNat ≤ k → k ≤ (u.ctrl i).maskMsb.toNat →
      (laneMasked g u i).getLsbD k = (laneShifted g u i).getLsbD k) ∧
    laneMasked g u i &&& ~~~ window (u.ctrl i).maskLsb (u.ctrl i).maskMsb = 0#32 ∧
    (∀ k : Nat, k < (u.ctrl i).maskLsb.toNat ∨ (u.ctrl i).maskMsb.toNat < k →
      (laneMasked g u i).getLsbD k = false) ∧
    ∀ u' : InterpUnit, laneInput u' i = laneInput u i → (u'.ctrl i).shift = (u.ctrl i).shift →
      (u'.ctrl i).maskLsb = (u.ctrl i).maskLsb → (u'.ctrl i).maskMsb = (u.ctrl i).maskMsb →
      laneMasked g u' i = laneMasked g u i

/-- 41_engine.md R87: a lane's flag says that its shifted value has a bit above `mask_msb`; `overf` is the or; the flags
do not depend on the bases, `is_signed`, `add_raw`, `clamp`, `blend` or `CAP`. -/
def Obligations.OverflowFlagsSeeBitsAboveTheWindow : Prop :=
  ∀ (g : Gen) (cap : Cap) (div : BlendDiv) (u : InterpUnit) (e : EngineResult),
    engine g cap div u = some e →
    e.overf0 = laneOverflow g u .lane0 ∧ e.overf1 = laneOverflow g u .lane1 ∧
    (e.overf0 = true ↔ ∃ k, u.ctrl0.maskMsb.toNat < k ∧ k < 32 ∧
      (laneShifted g u .lane0).getLsbD k = true) ∧
    (e.overf1 = true ↔ ∃ k, u.ctrl1.maskMsb.toNat < k ∧ k < 32 ∧
      (laneShifted g u .lane1).getLsbD k = true) ∧
    e.overf = (e.overf0 || e.overf1) ∧
    (u.ctrl0.maskMsb = 31#5 → e.overf0 = false) ∧ (u.ctrl1.maskMsb = 31#5 → e.overf1 = false) ∧
    ∀ (cap' : Cap) (div' : BlendDiv) (b0 b1 b2 : Word) (s0 s1 r0 r1 c0 c1 d0 d1 : Bool),
      ∃ e', engine g cap' div'
          { u with
            base0 := b0, base1 := b1, base2 := b2
            ctrl0 := { u.ctrl0 with isSigned := s0, addRaw := r0, clamp := c0, blend := d0 }
            ctrl1 := { u.ctrl1 with isSigned := s1, addRaw := r1, clamp := c1, blend := d1 } } = some e' ∧
        e'.overf0 = e.overf0 ∧ e'.overf1 = e.overf1 ∧ e'.overf = e.overf

/-- 41_engine.md R89: up to `mask_msb` the masked value's bits; above it the bit at `mask_msb`, when `is_signed`. -/
def Obligations.SignedResultCopiesTheBitAtMaskMsb : Prop :=
  ∀ (g : Gen) (u : InterpUnit) (i : Lane) (k : Nat), (u.ctrl i).windowInOrder = true → k < 32 →
    (laneSigned g u i).getLsbD k =
      if k ≤ (u.ctrl i).maskMsb.toNat then (laneMasked g u i).getLsbD k
      else (u.ctrl i).isSigned && (laneMasked g u i).getLsbD (u.ctrl i).maskMsb.toNat

/-- 41_engine.md R90: the lane adds its base to the raw input or the signed result, modulo 2^32, and sets no flag;
`add_raw` changes neither the full result nor the raw results. -/
def Obligations.LaneAddWrapsAndAddRawIsLocal : Prop :=
  (∀ (g : Gen) (u : InterpUnit),
    (laneAdd g u .lane0).toNat = (u.base0.toNat +
      (if u.ctrl0.addRaw then laneInput u .lane0 else laneSigned g u .lane0).toNat) % 2 ^ 32 ∧
    (laneAdd g u .lane1).toNat = (u.base1.toNat +
      (if u.ctrl1.addRaw then laneInput u .lane1 else laneSigned g u .lane1).toNat) % 2 ^ 32) ∧
  ∀ (g : Gen) (cap : Cap) (u : InterpUnit) (b0 b1 : Word) (r0 r1 : Bool) (i : Lane),
    let u' : InterpUnit :=
      { u with
        base0 := b0, base1 := b1
        ctrl0 := { u.ctrl0 with addRaw := r0 }, ctrl1 := { u.ctrl1 with addRaw := r1 } }
    fullResult g cap u' = fullResult g cap u ∧ laneSigned g u' i = laneSigned g u i ∧
      laneOverflow g u' i = laneOverflow g u i

/-- 41_engine.md R91. -/
def Obligations.FullResultSumsTheSignedResults : Prop :=
  ∀ (g : Gen) (cap : Cap) (u : InterpUnit),
    (fullResult g cap u).toNat =
      (u.base2.toNat + (laneSigned g u .lane0).toNat
        + (if doBlend cap u then 0 else (laneSigned g u .lane1).toNat)) % 2 ^ 32

/-- 41_engine.md R92: the comparison is signed or unsigned by lane 0's `is_signed`; a value below `base[0]` gives
`base[0]`, one above `base[1]` gives `base[1]`, and with the bounds in order the result lies between them. The order of
the two tests for crossed bounds is the spec's decision D7 (log 7) and is not stated here. -/
def Obligations.ClampLimitsToOrderedBounds : Prop :=
  ∀ (g : Gen) (u : InterpUnit),
    (u.ctrl0.isSigned = true → s32 u.base0 ≤ s32 u.base1 →
      s32 (clampValue g u) =
        max (s32 u.base0) (min (s32 u.base1) (s32 (laneSigned g u .lane0)))) ∧
    (u.ctrl0.isSigned = false → u.base0.toNat ≤ u.base1.toNat →
      (clampValue g u).toNat =
        max u.base0.toNat (min u.base1.toNat (laneSigned g u .lane0).toNat))

/-- Crossed bounds: the lower bound is tested first (41_engine.md R93, the spec's own decision D7; log 7). -/
def Obligations.CrossedClampBoundsTestTheLowerFirst : Prop :=
  ∀ (g : Gen) (u : InterpUnit),
    (u.ctrl0.isSigned = true → s32 u.base1 < s32 u.base0 →
      clampValue g u = if s32 (laneSigned g u .lane0) < s32 u.base0 then u.base0 else u.base1) ∧
    (u.ctrl0.isSigned = false → u.base1.toNat < u.base0.toNat →
      clampValue g u = if (laneSigned g u .lane0).toNat < u.base0.toNat then u.base0 else u.base1)

/-- Clamp mode replaces lane 0's presentation and nothing else (41_engine.md R91, R92, R97, R98). -/
def Obligations.ClampFlagChangesLane0Only : Prop :=
  ∀ (g : Gen) (cap : Cap) (div : BlendDiv) (u : InterpUnit) (c : Bool),
    ∃ p, engineResult g cap div { u with ctrl0 := { u.ctrl0 with clamp := c } } =
      { engineResult g cap div u with peek0 := p }

/-- 41_engine.md R94. -/
def Obligations.AlphaIsTheLowByteOfLane1 : Prop :=
  ∀ (g : Gen) (u : InterpUnit),
    (blendAlpha g u).toNat = (laneSigned g u .lane1).toNat % 256 ∧ (blendAlpha g u).toNat ≤ 255

/-- The unsigned blend is the floor of the exact quotient, modulo 2^32, descending bases included (41_engine.md R95,
whose widths are the spec's own decision D21, log 11, and whose closed form it marks as derived). -/
def Obligations.UnsignedBlendIsTheFloorOfTheExactQuotient : Prop :=
  ∀ (b0 b1 : Word) (a : BitVec 8),
    blendUnsigned b0 b1 a =
      BitVec.ofInt 32 ((b0.toNat : Int) + ((a.toNat : Int) * ((b1.toNat : Int) - b0.toNat)).fdiv 256)

/-- The signed blend's product fits 64 bits with room to spare, and the two roundings of `BLEND_DIV` differ, by one,
exactly for a negative product that is no multiple of 256 (00_scope.md R6, 41_engine.md R95; decisions D8 and D21,
logs 8, 11). -/
def Obligations.SignedBlendRoundingsDifferOnNegativeProductsOnly : Prop :=
  ∀ (b0 b1 : Word) (a : BitVec 8),
    let p : Int := a.toNat * (s32 b1 - s32 b0)
    p.natAbs < 2 ^ 40 ∧
    blendSigned .floor b0 b1 a = BitVec.ofInt 32 (s32 b0 + p.fdiv 256) ∧
    (0 ≤ p ∨ p % 256 = 0 → blendSigned .trunc b0 b1 a = blendSigned .floor b0 b1 a) ∧
    (p < 0 → p % 256 ≠ 0 →
      blendSigned .trunc b0 b1 a = blendSigned .floor b0 b1 a + 1#32)

/-- Weight 0 gives `base[0]`, equal bases give their value, and every blend, unsigned or signed, of ascending or descending
bases and with either rounding, lies between its two bases in its own comparison (41_engine.md R95; D8, D21, logs 8, 11). -/
def Obligations.BlendStaysBetweenItsEndPoints : Prop :=
  ∀ (div : BlendDiv) (b0 b1 : Word) (a : BitVec 8),
    blendUnsigned b0 b1 0#8 = b0 ∧ blendSigned div b0 b1 0#8 = b0 ∧
    blendUnsigned b0 b0 a = b0 ∧ blendSigned div b0 b0 a = b0 ∧
    min b0.toNat b1.toNat ≤ (blendUnsigned b0 b1 a).toNat ∧
    (blendUnsigned b0 b1 a).toNat ≤ max b0.toNat b1.toNat ∧
    min (s32 b0) (s32 b1) ≤ s32 (blendSigned div b0 b1 a) ∧
    s32 (blendSigned div b0 b1 a) ≤ max (s32 b0) (s32 b1)

/-- 41_engine.md R81: the gating of the two modes, which are never both active; `c_1.clamp` and `c_0.blend` are read by
nothing. -/
def Obligations.ModesAreGatedByCapabilityAndExclusive : Prop :=
  ∀ (cap : Cap) (u : InterpUnit),
    (doClamp cap u = true ↔ u.ctrl0.clamp = true ∧ cap = .clampCapable) ∧
    (doBlend cap u = true ↔ u.ctrl1.blend = true ∧ cap = .blendCapable) ∧
    ¬ (doClamp cap u = true ∧ doBlend cap u = true) ∧
    ∀ (g : Gen) (div : BlendDiv) (a b : Bool),
      engine g cap div
        { u with ctrl0 := { u.ctrl0 with blend := a }, ctrl1 := { u.ctrl1 with clamp := b } } =
        engine g cap div u

/-- The three presentations of lane 0 and the two of lane 1 (41_engine.md R97, R98). That lane i takes its own force
bits is the spec's decision D10 (log 10), that `alpha` takes none its U2 (log 12). -/
def Obligations.PresentationsFollowTheMode : Prop :=
  ∀ (g : Gen) (cap : Cap) (div : BlendDiv) (u : InterpUnit) (e : EngineResult),
    engine g cap div u = some e →
    e.peek0 = (if doBlend cap u then (blendAlpha g u).setWidth 32
      else if doClamp cap u then clampValue g u ||| forceBits u.ctrl0
      else laneAdd g u .lane0 ||| forceBits u.ctrl0) ∧
    e.peek1 = (if doBlend cap u then
        (if u.ctrl1.isSigned then blendSigned div u.base0 u.base1 (blendAlpha g u)
          else blendUnsigned u.base0 u.base1 (blendAlpha g u)) ||| forceBits u.ctrl1
      else laneAdd g u .lane1 ||| forceBits u.ctrl1) ∧
    e.peek2 = fullResult g cap u ∧
    e.peekraw0 = laneSigned g u .lane0 ∧ e.peekraw1 = laneSigned g u .lane1

/-- The force bits are the two bits of `force_msb` at positions 29 and 28 (41_engine.md R96; 90_conflicts.md C1,
log 16). -/
def Obligations.ForceBitsStandAt29And28 : Prop :=
  ∀ (c : CtrlConfig) (k : Nat),
    (forceBits c).getLsbD k =
      ((decide (k = 28) && c.forceMsb.getLsbD 0) || (decide (k = 29) && c.forceMsb.getLsbD 1))

/-- Lane 0's `clamp` bit has no effect on a blend-capable unit, lane 1's `blend` bit none on a clamp-capable one
(10_state.md R18; log 15). That lane 0's `blend` and lane 1's `clamp` have none on any unit is part of
`ModesAreGatedByCapabilityAndExclusive`. -/
def Obligations.ModeBitsWithoutEffect : Prop :=
  ∀ (g : Gen) (div : BlendDiv) (u : InterpUnit) (a b : Bool),
    engine g .blendCapable div { u with ctrl0 := { u.ctrl0 with clamp := a } } =
      engine g .blendCapable div u ∧
    engine g .clampCapable div { u with ctrl1 := { u.ctrl1 with blend := b } } =
      engine g .clampCapable div u

/-- The engine has no result exactly while one of the two windows is inverted (41_engine.md R85, R100; the treatment is
the spec's decision D6, log 6). -/
def Obligations.EngineUnsupportedExactlyWhileAWindowIsInverted : Prop :=
  ∀ (g : Gen) (cap : Cap) (div : BlendDiv) (u : InterpUnit),
    engine g cap div u = none ↔
      (u.ctrl0.maskMsb.toNat < u.ctrl0.maskLsb.toNat ∨ u.ctrl1.maskMsb.toNat < u.ctrl1.maskLsb.toNat)

/-- With both shifts 0 the generations agree in every result and flag (00_scope.md R2, 41_engine.md R83). -/
def Obligations.GenerationsAgreeWithoutAShift : Prop :=
  ∀ (g g' : Gen) (cap : Cap) (div : BlendDiv) (u : InterpUnit),
    u.ctrl0.shift = 0#5 → u.ctrl1.shift = 0#5 → engine g cap div u = engine g' cap div u

/-! ### The write operations -/

/-- 42_write_ops.md R110, R111: encoding, text and effect; every other register, the other unit and the parameters are
unchanged, and no data is driven. The select value in each rule's encoding is decision D2 (log 2). -/
def Obligations.WriteAccumSetsOneAccumulator : Prop :=
  ∀ (n : UnitId) (v : Word) (s : State),
    decode ⟨n.toBit, 0x10#5, v⟩ = .ok (.writeAccum0 n v) ∧
    (Line.write n .accum0 v).expand = [.writeAccum0 n v] ∧
    (∃ t, exec (.writeAccum0 n v) s = .next t ∧
      UnitBecomes n { s.unit n with accum0 := v } none s t) ∧
    decode ⟨n.toBit, 0x11#5, v⟩ = .ok (.writeAccum1 n v) ∧
    (Line.write n .accum1 v).expand = [.writeAccum1 n v] ∧
    (∃ t, exec (.writeAccum1 n v) s = .next t ∧
      UnitBecomes n { s.unit n with accum1 := v } none s t)

/-- 42_write_ops.md R112, R113 and the third base register's write beside them: all 32 bits are stored as given, nothing
else changes, and no flag depends on a base. The select value in each encoding is decision D2 (log 2). -/
def Obligations.WriteBaseSetsOneBase : Prop :=
  (∀ (g : Gen) (u : InterpUnit) (b0 b1 b2 : Word) (i : Lane),
    laneOverflow g { u with base0 := b0, base1 := b1, base2 := b2 } i = laneOverflow g u i) ∧
  ∀ (n : UnitId) (v : Word) (s : State),
    decode ⟨n.toBit, 0x12#5, v⟩ = .ok (.writeBase0 n v) ∧
    (Line.write n .base0 v).expand = [.writeBase0 n v] ∧
    (∃ t, exec (.writeBase0 n v) s = .next t ∧
      UnitBecomes n { s.unit n with base0 := v } none s t) ∧
    decode ⟨n.toBit, 0x13#5, v⟩ = .ok (.writeBase1 n v) ∧
    (Line.write n .base1 v).expand = [.writeBase1 n v] ∧
    (∃ t, exec (.writeBase1 n v) s = .next t ∧
      UnitBecomes n { s.unit n with base1 := v } none s t) ∧
    decode ⟨n.toBit, 0x14#5, v⟩ = .ok (.writeBase2 n v) ∧
    (Line.write n .base2 v).expand = [.writeBase2 n v] ∧
    (∃ t, exec (.writeBase2 n v) s = .next t ∧
      UnitBecomes n { s.unit n with base2 := v } none s t)

/-- 42_write_ops.md R115, R116: the ten read/write fields of the decoded word are stored, whatever they are; bits 31:23
are dropped; nothing else changes. Select and bit positions are decisions D2 and D1 (logs 2, 1). -/
def Obligations.WriteCtrlStoresTheConfigurationFields : Prop :=
  (∀ (n : UnitId) (w : Word) (s : State),
    decode ⟨n.toBit, 0x1B#5, w⟩ = .ok (.writeCtrl0 n w) ∧
    (Line.write n .ctrl0 w).expand = [.writeCtrl0 n w] ∧
    (∃ t, exec (.writeCtrl0 n w) s = .next t ∧
      UnitBecomes n { s.unit n with ctrl0 := (decodeCtrl w).toCtrlConfig } none s t) ∧
    decode ⟨n.toBit, 0x1C#5, w⟩ = .ok (.writeCtrl1 n w) ∧
    (Line.write n .ctrl1 w).expand = [.writeCtrl1 n w] ∧
    (∃ t, exec (.writeCtrl1 n w) s = .next t ∧
      UnitBecomes n { s.unit n with ctrl1 := (decodeCtrl w).toCtrlConfig } none s t)) ∧
  ∀ w : Word, (decodeCtrl w).toCtrlConfig = (decodeCtrl (w &&& 0x007FFFFF#32)).toCtrlConfig

/-- 42_write_ops.md R117, R118: the sum wraps; the other accumulator and everything else are unchanged. The select values
are decision D2 (log 2). -/
def Obligations.WriteAddAddsToOneAccumulator : Prop :=
  ∀ (n : UnitId) (v : Word) (s : State),
    decode ⟨n.toBit, 0x1D#5, v⟩ = .ok (.writeAdd0 n v) ∧
    (Line.write n .add0 v).expand = [.writeAdd0 n v] ∧
    (∃ t a, exec (.writeAdd0 n v) s = .next t ∧
      a.toNat = ((s.unit n).accum0.toNat + v.toNat) % 2 ^ 32 ∧
      UnitBecomes n { s.unit n with accum0 := a } none s t) ∧
    decode ⟨n.toBit, 0x1E#5, v⟩ = .ok (.writeAdd1 n v) ∧
    (Line.write n .add1 v).expand = [.writeAdd1 n v] ∧
    (∃ t a, exec (.writeAdd1 n v) s = .next t ∧
      a.toNat = ((s.unit n).accum1.toNat + v.toNat) % 2 ^ 32 ∧
      UnitBecomes n { s.unit n with accum1 := a } none s t)

/-- `WRITE_BASE01` (42_write_ops.md R119) writes both bases, each half widened by its lane's `is_signed`; only they
change. That a half is zero-extended when the bit is 0 is the spec's own inference (91_not_in_source.md N25, log 27). -/
def Obligations.WriteBase01WidensBothHalves : Prop :=
  ∀ (n : UnitId) (v : Word) (s : State),
    let u := s.unit n
    let signed0 := if u.ctrl1.blend = true ∧ s.params.capOf n = .blendCapable
      then u.ctrl1.isSigned else u.ctrl0.isSigned
    decode ⟨n.toBit, 0x1F#5, v⟩ = .ok (.writeBase01 n v) ∧
    (Line.write n .base01 v).expand = [.writeBase01 n v] ∧
    ∃ t b0 b1, exec (.writeBase01 n v) s = .next t ∧
      UnitBecomes n { u with base0 := b0, base1 := b1 } none s t ∧
      b0.toNat = v.toNat % 2 ^ 16 +
        (if signed0 = true ∧ v.getLsbD 15 = true then 0xFFFF0000 else 0) ∧
      b1.toNat = v.toNat / 2 ^ 16 +
        (if u.ctrl1.isSigned = true ∧ v.getLsbD 31 = true then 0xFFFF0000 else 0)

/-! ### The read operations -/

/-- 43_read_ops.md R130 to R134: the stored register, and nothing changes but the driven data, in every state; that this
includes states with an inverted window the spec marks as derived. The select values are decision D2 (log 2). -/
def Obligations.PlainReadsReturnTheStoredRegister : Prop :=
  ∀ (n : UnitId) (x : Word) (s : State),
    decode ⟨n.toBit, 0x00#5, x⟩ = .ok (.readAccum0 n) ∧
    (Line.read n .accum0 none).expand = [.readAccum0 n] ∧
    exec (.readAccum0 n) s = .next { s with rdata := some (s.unit n).accum0 } ∧
    decode ⟨n.toBit, 0x01#5, x⟩ = .ok (.readAccum1 n) ∧
    (Line.read n .accum1 none).expand = [.readAccum1 n] ∧
    exec (.readAccum1 n) s = .next { s with rdata := some (s.unit n).accum1 } ∧
    decode ⟨n.toBit, 0x02#5, x⟩ = .ok (.readBase0 n) ∧
    (Line.read n .base0 none).expand = [.readBase0 n] ∧
    exec (.readBase0 n) s = .next { s with rdata := some (s.unit n).base0 } ∧
    decode ⟨n.toBit, 0x03#5, x⟩ = .ok (.readBase1 n) ∧
    (Line.read n .base1 none).expand = [.readBase1 n] ∧
    exec (.readBase1 n) s = .next { s with rdata := some (s.unit n).base1 } ∧
    decode ⟨n.toBit, 0x04#5, x⟩ = .ok (.readBase2 n) ∧
    (Line.read n .base2 none).expand = [.readBase2 n] ∧
    exec (.readBase2 n) s = .next { s with rdata := some (s.unit n).base2 }

/-- 43_read_ops.md R136: lane 1's stored fields with zeros in bits 31:23; no state change, in every state, which for
states with an inverted window the spec marks as derived. Select and bit positions are decisions D2 and D1 (logs 2, 1). -/
def Obligations.ReadCtrl1ReturnsTheStoredFields : Prop :=
  ∀ (n : UnitId) (x : Word) (s : State),
    decode ⟨n.toBit, 0x0C#5, x⟩ = .ok (.readCtrl1 n) ∧
    (Line.read n .ctrl1 none).expand = [.readCtrl1 n] ∧
    ∃ w, exec (.readCtrl1 n) s = .next { s with rdata := some w } ∧
      (decodeCtrl w).toCtrlConfig = (s.unit n).ctrl1 ∧ w.toNat < 2 ^ 23

/-- `READ_CTRL0` (43_read_ops.md R135): encoding and text, and with the windows in order the stored fields, the engine's
present flags in bits 23, 24 and 25, zeros above; no state change. Its refusal otherwise is stated apart. The select and
the bit positions are decisions D2 and D1 (logs 2, 1). -/
def Obligations.ReadCtrl0ReturnsTheFieldsAndFlags : Prop :=
  ∀ (n : UnitId) (x : Word) (s : State),
    decode ⟨n.toBit, 0x0B#5, x⟩ = .ok (.readCtrl0 n) ∧
    (Line.read n .ctrl0 none).expand = [.readCtrl0 n] ∧
    ((s.unit n).windowsInOrder = true →
      ∃ e w, engine s.params.gen (s.params.capOf n) s.params.blendDiv (s.unit n) = some e ∧
        exec (.readCtrl0 n) s = .next { s with rdata := some w } ∧
        (decodeCtrl w).toCtrlConfig = (s.unit n).ctrl0 ∧
        w.getLsbD 23 = e.overf0 ∧ w.getLsbD 24 = e.overf1 ∧ w.getLsbD 25 = e.overf ∧ w.toNat < 2 ^ 26)

/-- The three peeks and the two raw peeks: encoding and text, and with the windows in order the engine's five results, the
raw ones the signed results with no base, mode or force bits; nothing changes but the driven data (43_read_ops.md R137 to
R141). The select values are decision D2 (log 2). -/
def Obligations.PeeksReturnTheEngineResults : Prop :=
  ∀ (n : UnitId) (x : Word) (s : State),
    decode ⟨n.toBit, 0x08#5, x⟩ = .ok (.readPeek0 n) ∧
    (Line.read n .peek0 none).expand = [.readPeek0 n] ∧
    decode ⟨n.toBit, 0x09#5, x⟩ = .ok (.readPeek1 n) ∧
    (Line.read n .peek1 none).expand = [.readPeek1 n] ∧
    decode ⟨n.toBit, 0x0A#5, x⟩ = .ok (.readPeek2 n) ∧
    (Line.read n .peek2 none).expand = [.readPeek2 n] ∧
    decode ⟨n.toBit, 0x0D#5, x⟩ = .ok (.readPeekraw0 n) ∧
    (Line.read n .peekraw0 none).expand = [.readPeekraw0 n] ∧
    decode ⟨n.toBit, 0x0E#5, x⟩ = .ok (.readPeekraw1 n) ∧
    (Line.read n .peekraw1 none).expand = [.readPeekraw1 n] ∧
    ((s.unit n).windowsInOrder = true →
      ∃ e, engine s.params.gen (s.params.capOf n) s.params.blendDiv (s.unit n) = some e ∧
        exec (.readPeek0 n) s = .next { s with rdata := some e.peek0 } ∧
        exec (.readPeek1 n) s = .next { s with rdata := some e.peek1 } ∧
        exec (.readPeek2 n) s = .next { s with rdata := some e.peek2 } ∧
        exec (.readPeekraw0 n) s =
          .next { s with rdata := some (laneSigned s.params.gen (s.unit n) .lane0) } ∧
        exec (.readPeekraw1 n) s =
          .next { s with rdata := some (laneSigned s.params.gen (s.unit n) .lane1) })

/-- `READ_POP0` and `READ_POP1`: encoding and text, and with the windows in order the lane's presentation is returned, both
accumulators take the presentations their own `cross_result` selects, and nothing else changes (43_read_ops.md R145 to
R147). The select values are decision D2 (log 2). -/
def Obligations.LanePopsReturnAndWriteBack : Prop :=
  ∀ (n : UnitId) (x : Word) (s : State),
    decode ⟨n.toBit, 0x05#5, x⟩ = .ok (.readPop0 n) ∧
    (Line.read n .pop0 none).expand = [.readPop0 n] ∧
    decode ⟨n.toBit, 0x06#5, x⟩ = .ok (.readPop1 n) ∧
    (Line.read n .pop1 none).expand = [.readPop1 n] ∧
    ((s.unit n).windowsInOrder = true →
      ∃ e t0 t1, engine s.params.gen (s.params.capOf n) s.params.blendDiv (s.unit n) = some e ∧
        exec (.readPop0 n) s = .next t0 ∧ exec (.readPop1 n) s = .next t1 ∧
        UnitBecomes n
          { s.unit n with
            accum0 := if (s.unit n).ctrl0.crossResult then e.peek1 else e.peek0
            accum1 := if (s.unit n).ctrl1.crossResult then e.peek0 else e.peek1 }
          (some e.peek0) s t0 ∧
        UnitBecomes n (t0.unit n) (some e.peek1) s t1)

/-- `READ_POP2`: encoding and text, and with the windows in order it returns the full result and writes back as the other
pops do; the writeback is the spec's decision D9 (43_read_ops.md R148, 90_conflicts.md C4; log 9), the select value its D2
(log 2). -/
def Obligations.FullPopReturnsAndWritesBack : Prop :=
  ∀ (n : UnitId) (x : Word) (s : State),
    decode ⟨n.toBit, 0x07#5, x⟩ = .ok (.readPop2 n) ∧
    (Line.read n .pop2 none).expand = [.readPop2 n] ∧
    ((s.unit n).windowsInOrder = true →
      ∃ e t, engine s.params.gen (s.params.capOf n) s.params.blendDiv (s.unit n) = some e ∧
        exec (.readPop2 n) s = .next t ∧
        UnitBecomes n
          { s.unit n with
            accum0 := if (s.unit n).ctrl0.crossResult then e.peek1 else e.peek0
            accum1 := if (s.unit n).ctrl1.crossResult then e.peek0 else e.peek1 }
          (some e.peek2) s t)

/-- The model refuses exactly the nine operations that need the engine, and those exactly while a window of their unit is
inverted (43_read_ops.md R149, the spec's decision D6; log 6); every other operation completes in every state. -/
def Obligations.RefusedExactlyWhileTheEngineIsNeededAndInverted : Prop :=
  ∀ (i : Instr) (s : State),
    (exec i s = .refused (.invertedWindow i.unitOf) ↔
      i.needsEngine = true ∧ (s.unit i.unitOf).windowsInOrder = false) ∧
    ((i.needsEngine = false ∨ (s.unit i.unitOf).windowsInOrder = true) ↔
      ∃ t, exec i s = .next t)

/-! ### Rules over all operations -/

/-- 10_state.md R12: the accumulators are changed by their writes, their adds and the pops of their unit, and by nothing
else. -/
def Obligations.AccumulatorsChangeOnlyByTheirWritersAndPops : Prop :=
  ∀ (i : Instr) (s t : State) (n : UnitId), exec i s = .next t →
    ((t.unit n).accum0 ≠ (s.unit n).accum0 →
      (∃ v, i = .writeAccum0 n v ∨ i = .writeAdd0 n v) ∨
      i = .readPop0 n ∨ i = .readPop1 n ∨ i = .readPop2 n) ∧
    ((t.unit n).accum1 ≠ (s.unit n).accum1 →
      (∃ v, i = .writeAccum1 n v ∨ i = .writeAdd1 n v) ∨
      i = .readPop0 n ∨ i = .readPop1 n ∨ i = .readPop2 n)

/-- 10_state.md R13: the bases are changed by their writes and the packed write, and by nothing else. -/
def Obligations.BasesChangeOnlyByTheirWriters : Prop :=
  ∀ (i : Instr) (s t : State) (n : UnitId), exec i s = .next t →
    ((t.unit n).base0 ≠ (s.unit n).base0 → ∃ v, i = .writeBase0 n v ∨ i = .writeBase01 n v) ∧
    ((t.unit n).base1 ≠ (s.unit n).base1 → ∃ v, i = .writeBase1 n v ∨ i = .writeBase01 n v) ∧
    ((t.unit n).base2 ≠ (s.unit n).base2 → ∃ v, i = .writeBase2 n v)

/-- The control records are changed by their control write alone (10_state.md section 2, register summary). -/
def Obligations.ControlRecordsChangeOnlyByTheirWrites : Prop :=
  ∀ (i : Instr) (s t : State) (n : UnitId), exec i s = .next t →
    ((t.unit n).ctrl0 ≠ (s.unit n).ctrl0 → ∃ w, i = .writeCtrl0 n w) ∧
    ((t.unit n).ctrl1 ≠ (s.unit n).ctrl1 → ∃ w, i = .writeCtrl1 n w)

/-- 20_memory.md R34: an operation touches the unit it names only. -/
def Obligations.OperationsTouchTheirUnitOnly : Prop :=
  ∀ (i : Instr) (s t : State), exec i s = .next t →
    t.unit i.unitOf.other = s.unit i.unitOf.other ∧ t.params = s.params ∧ t.pending = s.pending

/-- A read that is no pop changes nothing but the driven data; every read drives data and no write does
(43_read_ops.md R129, 42_write_ops.md R109, 30_encoding.md R54). -/
def Obligations.OnlyPopsAmongReadsChangeRegisters : Prop :=
  ∀ (i : Instr) (s t : State), exec i s = .next t →
    (i.isWrite = true → t.rdata = none) ∧
    (i.isWrite = false → ∃ v, t.rdata = some v) ∧
    (i.isWrite = false → i.isPop = false → ∃ v, t = { s with rdata := some v })

/-- A read without side effect, repeated with nothing between, returns the same value (20_memory.md R38). -/
def Obligations.ReadsWithoutSideEffectRepeat : Prop :=
  ∀ (i : Instr) (s t : State), i.isWrite = false → i.isPop = false →
    exec i s = .next t → exec i t = .next t

/-- A peek and then the pop of the same result return the same value (43_read_ops.md R150, marked there as derived). -/
def Obligations.PeekThenPopReturnsTheSameValue : Prop :=
  ∀ (n : UnitId) (s t : State),
    (exec (.readPeek0 n) s = .next t → ∃ t', exec (.readPop0 n) t = .next t' ∧ t'.rdata = t.rdata) ∧
    (exec (.readPeek1 n) s = .next t → ∃ t', exec (.readPop1 n) t = .next t' ∧ t'.rdata = t.rdata) ∧
    (exec (.readPeek2 n) s = .next t → ∃ t', exec (.readPop2 n) t = .next t' ∧ t'.rdata = t.rdata)

/-- What an operation answers and does to its unit depends on that unit's registers, the generation, the unit's
capability and the rounding only: not on the other unit, the earlier read data or what is pending (00_scope.md R8,
41_engine.md R103). -/
def Obligations.OperationsDependOnTheirUnitOnly : Prop :=
  ∀ (i : Instr) (s s' : State),
    s.unit i.unitOf = s'.unit i.unitOf → s.params.gen = s'.params.gen →
    s.params.capOf i.unitOf = s'.params.capOf i.unitOf → s.params.blendDiv = s'.params.blendDiv →
    (∃ t t', exec i s = .next t ∧ exec i s' = .next t' ∧
      t.unit i.unitOf = t'.unit i.unitOf ∧ t.rdata = t'.rdata) ∨
    ∃ r, exec i s = .refused r ∧ exec i s' = .refused r

/-- What is written to bits 22:0 of a control word reads back; bits 31:23 of the written word have no effect, and in their
place `READ_CTRL1` returns zeros and `READ_CTRL0` the engine's present flags in bits 25:23 and zeros above (10_state.md
R15, R16, 30_encoding.md R58; decision D1, log 1). -/
def Obligations.ControlWritesReadBack : Prop :=
  ∀ (n : UnitId) (w : Word) (s t : State),
    (∀ w' : Word, w' &&& 0x007FFFFF#32 = w &&& 0x007FFFFF#32 →
      exec (.writeCtrl0 n w') s = exec (.writeCtrl0 n w) s ∧
      exec (.writeCtrl1 n w') s = exec (.writeCtrl1 n w) s) ∧
    (exec (.writeCtrl1 n w) s = .next t →
      exec (.readCtrl1 n) t = .next { t with rdata := some (w &&& 0x007FFFFF#32) }) ∧
    (exec (.writeCtrl0 n w) s = .next t → (t.unit n).windowsInOrder = true →
      ∃ e x, engine t.params.gen (t.params.capOf n) t.params.blendDiv (t.unit n) = some e ∧
        exec (.readCtrl0 n) t = .next { t with rdata := some x } ∧
        x &&& 0x007FFFFF#32 = w &&& 0x007FFFFF#32 ∧
        x.getLsbD 23 = e.overf0 ∧ x.getLsbD 24 = e.overf1 ∧ x.getLsbD 25 = e.overf ∧
        x &&& 0xFC000000#32 = 0#32)

/-! ### Steps, the caller's contract and reset -/

/-- A step performs the caller's oldest pending presentation and removes it from the queue (20_memory.md R40, R41; the
queue is the model's own, log 18). -/
def Obligations.StepPerformsTheDecodedOperation : Prop :=
  ∀ (s : State) (p : Presentation) (rest : List Presentation) (i : Instr),
    s.pending = p :: rest → decode p = .ok i → i.wf = true →
    step s = exec i { s with pending := rest }

/-- The steps that perform no operation: a reserved select is refused by name (30_encoding.md R57, the spec's decision
D3; log 3), and with nothing presented nothing changes (the model's choice, log 18). -/
def Obligations.StepsWithoutAnOperation : Prop :=
  ∀ s : State,
    (∀ (p : Presentation) (rest : List Presentation), s.pending = p :: rest → p.wf = false →
      step s = .refused (.reservedSelect p.sel)) ∧
    (s.pending = [] → step s = .next s)

/-- Exactly one of the two units is blend-capable, whatever the parameters (00_scope.md R4), and `GEN`, `CAP_OF` and
`BLEND_DIV` never change (R2, R3); that the model carries them in its state is its own choice (log 17), and so is `CAP_OF`
in the form of the blend-capable unit (log 5). -/
def Obligations.OneUnitBlendsAndParametersNeverChange : Prop :=
  ∀ p : Params,
    p.capOf .unit0 ≠ p.capOf .unit1 ∧
    (∀ n : UnitId, p.capOf n = .blendCapable ↔ n = p.blendUnit) ∧
    ∀ s t : State, s.params = p → step s = .next t → t.params = p

/-- A caller that keeps its contract (no reserved select pending, no inverted window written, windows in order now) is
never refused, and every step keeps the contract (70_reset_and_hazards.md R205; the two refusals are the spec's
decisions D3 and D6, logs 3, 6; the queue is the model's own, log 18). -/
def Obligations.CallerContractIsKeptAndNeverRefused : Prop :=
  ∀ s : State, s.callerContract = true → ∃ t, step s = .next t ∧ t.callerContract = true

/-- A whole run under the contract: every number of steps ends in a next state (the same choices as
`CallerContractIsKeptAndNeverRefused`). -/
def Obligations.RunsUnderTheContractAreNeverRefused : Prop :=
  ∀ (k : Nat) (s : State), s.callerContract = true → runsFor k s

/-- The machine after reset meets the contract; it rests on the model's reset values (log 4) and empty queue (log 18). -/
def Obligations.ResetMeetsTheCallerContract : Prop :=
  State.reset.callerContract = true

/-- In the state after reset, which is the model's choice (log 4: the instance the spec recommends), every register of
both units is 0, and the engine gives 0 everywhere whatever the parameters (70_reset_and_hazards.md R191, marked there
as derived). That no data is driven after reset is the model's choice (log 19); that the signed blend truncates is the
spec's default (00_scope.md R6, its decision D8; log 8). -/
def Obligations.ResetRegistersAndResultsAreZeroAndBlendTruncates : Prop :=
  State.reset.params.blendDiv = .trunc ∧
  ∀ (n : UnitId) (g : Gen) (cap : Cap) (div : BlendDiv),
    State.reset.unit n = ⟨0#32, 0#32, 0#32, 0#32, 0#32, (decodeCtrl 0#32).toCtrlConfig,
      (decodeCtrl 0#32).toCtrlConfig⟩ ∧
    State.reset.rdata = none ∧
    engine g cap div (State.reset.unit n) =
      some ⟨0#32, 0#32, 0#32, 0#32, 0#32, false, false, false⟩

/-! ### The pseudo-operations and the text -/

/-- 44_pseudo_ops.md R160: a `state` line sets the whole unit whatever it held before, and its seven writes may come in
any order (which the spec marks as derived). -/
def Obligations.StateLineSetsTheWholeUnitInAnyOrder : Prop :=
  ∀ (n : UnitId) (w : UnitWords) (s : State) (ops : List Instr),
    ops.Perm (Line.state n w).expand →
    ∃ t, performAll ops s = .next ⟨t, []⟩ ∧
      UnitBecomes n
        ⟨w.accum0, w.accum1, w.base0, w.base1, w.base2, (decodeCtrl w.ctrl0).toCtrlConfig,
          (decodeCtrl w.ctrl1).toCtrlConfig⟩ none s t

/-- What `save` took, `restore` brings back, whatever happened to the unit in between, and nothing else changes; the
snapshot of seven registers is the spec's decision D17 (44_pseudo_ops.md R166; log 20). -/
def Obligations.RestoreBringsBackWhatSaveTook : Prop :=
  ∀ (n : UnitId) (s s' : State),
    ∃ t, performAll (restoreUnit n (saveUnit n s)) s' = .next ⟨t, []⟩ ∧
      UnitBecomes n (s.unit n) none s' t

/-- A `dump` performs twelve reads, the values in the order of decision D18 (log 24), and changes no register; it is
refused while a window is inverted (44_pseudo_ops.md R161). With twelve values to compare it performs the same reads
(R162), with any other number of them it reaches no unit (R168). -/
def Obligations.DumpReadsTwelveValuesAndChangesNothing : Prop :=
  ∀ (n : UnitId) (s : State),
    ((s.unit n).windowsInOrder = true →
      ∃ c0 e, engine s.params.gen (s.params.capOf n) s.params.blendDiv (s.unit n) = some e ∧
        exec (.readCtrl0 n) s = .next { s with rdata := some c0 } ∧
        performAll (Line.dump n none).expand s =
          .next ⟨{ s with rdata := some e.peekraw1 },
            [(s.unit n).accum0, (s.unit n).accum1, (s.unit n).base0, (s.unit n).base1, (s.unit n).base2, c0,
              encodeCtrl ⟨(s.unit n).ctrl1, false, false, false, 0#6⟩,
              e.peek0, e.peek1, e.peek2, e.peekraw0, e.peekraw1]⟩) ∧
    ((s.unit n).windowsInOrder = false →
      performAll (Line.dump n none).expand s = .refused (.invertedWindow n)) ∧
    ∀ es : List Word,
      (es.length = 12 → (Line.dump n (some es)).expand = (Line.dump n none).expand) ∧
      (es.length ≠ 12 → (Line.dump n (some es)).expand = [] ∧ presentLine (.dump n (some es)) s = s)

/-- The compare forms `read n r e` and `dump n e1 … e12` perform what the plain forms perform, answer `ok` exactly when
every value read is the expected one, and otherwise `diff` with words that are zero exactly where the values agree; the
plain forms answer the data (44_pseudo_ops.md R161, R162, R163). -/
def Obligations.CompareFormsAnswerOkOrTheDifference : Prop :=
  (∀ (n : UnitId) (r : RegName) (e v : Word), (Line.read n r none).expand ≠ [] →
    (Line.read n r (some e)).expand = (Line.read n r none).expand ∧
    (Line.read n r none).answer [v] = some (.data [v]) ∧
    ((Line.read n r (some e)).answer [v] = some .ok ↔ v = e) ∧
    (v ≠ e → (Line.read n r (some e)).answer [v] = some (.diff [v ^^^ e]))) ∧
  ∀ (n : UnitId) (es vs : List Word), es.length = 12 → vs.length = 12 →
    (Line.dump n none).answer vs = some (.data vs) ∧
    ((Line.dump n (some es)).answer vs = some .ok ↔ vs = es) ∧
    (vs ≠ es → ∃ xs, (Line.dump n (some es)).answer vs = some (.diff xs) ∧ xs.length = 12 ∧
      ∀ (k : Nat) (v e : Word), vs[k]? = some v → es[k]? = some e →
        ∃ x, xs[k]? = some x ∧ x = v ^^^ e ∧ (x = 0#32 ↔ v = e))

/-- A spelled answer value reads back as the literal it is (30_encoding.md R62, R63; the spelling is the spec's decision
D19, log 24). -/
def Obligations.SpelledWordsReadBack : Prop :=
  ∀ v : Word, parseLiteral (spellWord v) = some v
end

