-- ==== Sys2Proof/Laws/Bits.lean ====
section
/-! SUPPORT. The primitives of spec/00_scope.md section 5.1 read bit by bit. -/

namespace Sys2Proof.Machine

/-- `window` as a power-of-two multiple of a low mask. -/
theorem window_eq_mul (l m : Nat) (h : l ≤ m) :
    2 ^ (m + 1) - 2 ^ l = 2 ^ l * (2 ^ (m + 1 - l) - 1) := by
  have : 2 ^ (m + 1) = 2 ^ l * 2 ^ (m + 1 - l) := by
    rw [← Nat.pow_add]; congr 1; omega
  rw [this, Nat.mul_sub, Nat.mul_one]

/-- The bits of `2 ^ (m + 1) - 2 ^ l`. -/
theorem testBit_window (l m k : Nat) (h : l ≤ m) :
    (2 ^ (m + 1) - 2 ^ l).testBit k = (decide (l ≤ k) && decide (k ≤ m)) := by
  rw [window_eq_mul l m h, Nat.testBit_two_pow_mul, Nat.testBit_two_pow_sub_one]
  by_cases hk : l ≤ k <;> simp [hk]
  omega

@[simp] theorem lsr32_zero (x : Word) : lsr32 x 0#5 = x := by simp [lsr32]
@[simp] theorem ror32_zero (x : Word) : ror32 x 0#5 = x := by
  simp [ror32, BitVec.rotateRight, BitVec.rotateRightAux]

@[simp] theorem shiftStage_zero (gen : Gen) (x : Word) : shiftStage gen x 0#5 = x := by
  cases gen <;> simp [shiftStage]

end Sys2Proof.Machine
end

