-- ==== Sys2Proof/Laws/Codec.lean ====
section
/-! SUPPORT. The codec read bit by bit. -/

namespace Sys2Proof.Machine

/-- A placed field's bits: the field's own from its position on, none below. -/
@[simp] theorem getLsbD_placeField {k : Nat} (f : BitVec k) (a j : Nat) :
    (placeField f a).getLsbD j = (decide (j < 32) && !decide (j < a) && f.getLsbD (j - a)) := by
  by_cases h : j < 32
  · simp [placeField, h]
  · simp [placeField, h]

@[simp] theorem getElem_placeField {k : Nat} (f : BitVec k) (a j : Nat) (h : j < 32) :
    (placeField f a)[j] = (!decide (j < a) && f.getLsbD (j - a)) := by
  rw [← BitVec.getLsbD_eq_getElem, getLsbD_placeField]; simp [h]

@[simp] theorem getLsbD_ofBool (b : Bool) (j : Nat) :
    (BitVec.ofBool b).getLsbD j = (decide (j = 0) && b) := by
  rcases j with _ | j <;> simp [BitVec.ofBool]
  cases b <;> simp

@[simp] theorem configOfWord_shift (w : Word) : (configOfWord w).shift = w.extractLsb' 0 5 := rfl
@[simp] theorem configOfWord_maskLsb (w : Word) : (configOfWord w).maskLsb = w.extractLsb' 5 5 := rfl
@[simp] theorem configOfWord_maskMsb (w : Word) : (configOfWord w).maskMsb = w.extractLsb' 10 5 := rfl
@[simp] theorem configOfWord_isSigned (w : Word) : (configOfWord w).isSigned = w.getLsbD 15 := rfl
@[simp] theorem configOfWord_crossInput (w : Word) : (configOfWord w).crossInput = w.getLsbD 16 := rfl
@[simp] theorem configOfWord_crossResult (w : Word) : (configOfWord w).crossResult = w.getLsbD 17 := rfl
@[simp] theorem configOfWord_addRaw (w : Word) : (configOfWord w).addRaw = w.getLsbD 18 := rfl
@[simp] theorem configOfWord_forceMsb (w : Word) : (configOfWord w).forceMsb = w.extractLsb' 19 2 := rfl
@[simp] theorem configOfWord_blend (w : Word) : (configOfWord w).blend = w.getLsbD 21 := rfl
@[simp] theorem configOfWord_clamp (w : Word) : (configOfWord w).clamp = w.getLsbD 22 := rfl

/-- Two control records agree when their ten fields do. -/
theorem CtrlConfig.ext_fields {c d : CtrlConfig} (h1 : c.shift = d.shift) (h2 : c.maskLsb = d.maskLsb)
    (h3 : c.maskMsb = d.maskMsb) (h4 : c.isSigned = d.isSigned) (h5 : c.crossInput = d.crossInput)
    (h6 : c.crossResult = d.crossResult) (h7 : c.addRaw = d.addRaw) (h8 : c.forceMsb = d.forceMsb)
    (h9 : c.blend = d.blend) (h10 : c.clamp = d.clamp) : c = d := by
  cases c; cases d; simp_all

end Sys2Proof.Machine
end

