-- ==== Sys2Proof/Laws/State.lean ====
section
/-! SUPPORT. One lemma per field per update of the state, so that no later proof unfolds a record update. -/

namespace Sys2Proof.Machine

variable (s : State) (n m : UnitId) (u : InterpUnit) (v : Word) (p : Presentation)

@[simp] theorem UnitId.other_ne : n.other ≠ n := by cases n <;> decide
@[simp] theorem UnitId.ne_other : n ≠ n.other := by cases n <;> decide
@[simp] theorem UnitId.other_other : n.other.other = n := by cases n <;> rfl
@[simp] theorem UnitId.ofBit_toBit : UnitId.ofBit n.toBit = n := by cases n <;> rfl

@[simp] theorem State.unit_setUnit : (s.setUnit n u).unit n = u := by cases n <;> rfl
@[simp] theorem State.unit_other_setUnit : (s.setUnit n u).unit n.other = s.unit n.other := by
  cases n <;> rfl
theorem State.unit_setUnit_of_ne (h : m ≠ n) : (s.setUnit n u).unit m = s.unit m := by
  cases n <;> cases m <;> first | rfl | exact absurd rfl h
@[simp] theorem State.setUnit_params : (s.setUnit n u).params = s.params := by cases n <;> rfl
@[simp] theorem State.setUnit_pending : (s.setUnit n u).pending = s.pending := by cases n <;> rfl
@[simp] theorem State.setUnit_rdata : (s.setUnit n u).rdata = s.rdata := by cases n <;> rfl

@[simp] theorem State.drive_params : (s.drive v).params = s.params := rfl
@[simp] theorem State.drive_unit0 : (s.drive v).unit0 = s.unit0 := rfl
@[simp] theorem State.drive_unit1 : (s.drive v).unit1 = s.unit1 := rfl
@[simp] theorem State.drive_unit : (s.drive v).unit n = s.unit n := by cases n <;> rfl
@[simp] theorem State.drive_pending : (s.drive v).pending = s.pending := rfl
@[simp] theorem State.drive_rdata : (s.drive v).rdata = some v := rfl

@[simp] theorem State.undrive_params : s.undrive.params = s.params := rfl
@[simp] theorem State.undrive_unit0 : s.undrive.unit0 = s.unit0 := rfl
@[simp] theorem State.undrive_unit1 : s.undrive.unit1 = s.unit1 := rfl
@[simp] theorem State.undrive_unit : s.undrive.unit n = s.unit n := by cases n <;> rfl
@[simp] theorem State.undrive_pending : s.undrive.pending = s.pending := rfl
@[simp] theorem State.undrive_rdata : s.undrive.rdata = none := rfl

@[simp] theorem presentNext_params : (presentNext p s).params = s.params := rfl
@[simp] theorem presentNext_unit : (presentNext p s).unit n = s.unit n := by cases n <;> rfl
@[simp] theorem presentNext_rdata : (presentNext p s).rdata = s.rdata := rfl
@[simp] theorem presentNext_pending : (presentNext p s).pending = p :: s.pending := rfl

@[simp] theorem engineOf_drive : (s.drive v).engineOf n = s.engineOf n := by
  simp [State.engineOf]
@[simp] theorem engineOf_undrive : s.undrive.engineOf n = s.engineOf n := by
  simp [State.engineOf]

/-- Two states with equal units, parameters, data and pending presentations are equal. -/
theorem State.ext_of_unit {s t : State} (hp : t.params = s.params) (hn : t.unit n = s.unit n)
    (ho : t.unit n.other = s.unit n.other) (hr : t.rdata = s.rdata) (hq : t.pending = s.pending) :
    t = s := by
  cases n <;> cases s <;> cases t <;> simp_all [State.unit, UnitId.other]

@[simp] theorem writeback_base0 (e : EngineResult) : (writeback e u).base0 = u.base0 := rfl
@[simp] theorem writeback_base1 (e : EngineResult) : (writeback e u).base1 = u.base1 := rfl
@[simp] theorem writeback_base2 (e : EngineResult) : (writeback e u).base2 = u.base2 := rfl
@[simp] theorem writeback_ctrl0 (e : EngineResult) : (writeback e u).ctrl0 = u.ctrl0 := rfl
@[simp] theorem writeback_ctrl1 (e : EngineResult) : (writeback e u).ctrl1 = u.ctrl1 := rfl

end Sys2Proof.Machine
end

