-- ==== Sys2Proof/Laws/Ops.lean ====
section
/-! SUPPORT. What each shared operation can do, said once. A proof about an instruction cites these and does not unfold
the operation. -/

namespace Sys2Proof.Machine

/-- `Engine(S)` has a result exactly when both windows are in order. -/
theorem engineOf_eq (s : State) (n : UnitId) :
    s.engineOf n =
      if (s.unit n).windowsInOrder then
        some (engineResult s.params.gen (s.params.capOf n) s.params.blendDiv (s.unit n))
      else none := rfl

theorem engineOf_of_inOrder {s : State} {n : UnitId} (h : (s.unit n).windowsInOrder = true) :
    s.engineOf n =
      some (engineResult s.params.gen (s.params.capOf n) s.params.blendDiv (s.unit n)) := by
  rw [engineOf_eq, if_pos h]

theorem engineOf_of_inverted {s : State} {n : UnitId} (h : (s.unit n).windowsInOrder = false) :
    s.engineOf n = none := by
  rw [engineOf_eq, h]; rfl

/-- A write always answers a next state; it changes unit `n` only and drives no data. -/
theorem writeUnit_next (n : UnitId) (f : InterpUnit → InterpUnit) (s : State) :
    ∃ t, writeUnit n f s = .next t ∧ UnitBecomes n (f (s.unit n)) none s t :=
  ⟨_, rfl, by simp [UnitBecomes]⟩

/-- A stored read always answers a next state that differs in the driven data only. -/
theorem readStored_next (n : UnitId) (f : InterpUnit → Word) (s : State) :
    ∃ t, readStored n f s = .next t ∧ UnitBecomes n (s.unit n) (some (f (s.unit n))) s t :=
  ⟨_, rfl, by simp [UnitBecomes]⟩

/-- A read of the engine's result, with the windows in order. -/
theorem readEngine_of_inOrder {n : UnitId} (f : EngineResult → Word) {s : State}
    (h : (s.unit n).windowsInOrder = true) :
    readEngine n f s = .next (s.drive (f
      (engineResult s.params.gen (s.params.capOf n) s.params.blendDiv (s.unit n)))) := by
  simp [readEngine, engineOf_of_inOrder h]

theorem readEngine_of_inverted {n : UnitId} (f : EngineResult → Word) {s : State}
    (h : (s.unit n).windowsInOrder = false) :
    readEngine n f s = .refused (.invertedWindow n) := by
  simp [readEngine, engineOf_of_inverted h]

/-- A pop, with the windows in order. -/
theorem popEngine_of_inOrder {n : UnitId} (f : EngineResult → Word) {s : State}
    (h : (s.unit n).windowsInOrder = true) :
    popEngine n f s = .next ((s.setUnit n (writeback
      (engineResult s.params.gen (s.params.capOf n) s.params.blendDiv (s.unit n)) (s.unit n))).drive (f
      (engineResult s.params.gen (s.params.capOf n) s.params.blendDiv (s.unit n)))) := by
  simp [popEngine, engineOf_of_inOrder h]

theorem popEngine_of_inverted {n : UnitId} (f : EngineResult → Word) {s : State}
    (h : (s.unit n).windowsInOrder = false) :
    popEngine n f s = .refused (.invertedWindow n) := by
  simp [popEngine, engineOf_of_inverted h]

/-- If a write answers a next state, that state differs in unit `n` and in the driven data only. -/
theorem writeUnit_inv {n : UnitId} {f : InterpUnit → InterpUnit} {s t : State}
    (h : writeUnit n f s = .next t) : UnitBecomes n (f (s.unit n)) none s t := by
  obtain ⟨t', h1, h2⟩ := writeUnit_next n f s
  rw [h] at h1
  injection h1 with h1
  exact h1 ▸ h2

/-- If a stored read answers a next state, that state differs in the driven data only. -/
theorem readStored_inv {n : UnitId} {f : InterpUnit → Word} {s t : State}
    (h : readStored n f s = .next t) : t = s.drive (f (s.unit n)) := by
  injection h with h
  exact h.symm

/-- If a read of the engine's result answers a next state, the windows were in order and that state differs in the
driven data only. -/
theorem readEngine_inv {n : UnitId} {f : EngineResult → Word} {s t : State}
    (h : readEngine n f s = .next t) :
    (s.unit n).windowsInOrder = true ∧ ∃ e, s.engineOf n = some e ∧ t = s.drive (f e) := by
  rcases hw : (s.unit n).windowsInOrder with _ | _
  · rw [readEngine_of_inverted f hw] at h
    cases h
  · rw [readEngine_of_inOrder f hw] at h
    injection h with h
    exact ⟨rfl, _, engineOf_of_inOrder hw, h.symm⟩

/-- If a pop answers a next state, the windows were in order and that state differs in the two accumulators of unit `n`
and in the driven data only. -/
theorem popEngine_inv {n : UnitId} {f : EngineResult → Word} {s t : State}
    (h : popEngine n f s = .next t) :
    (s.unit n).windowsInOrder = true ∧ ∃ e, s.engineOf n = some e ∧
      t = (s.setUnit n (writeback e (s.unit n))).drive (f e) := by
  rcases hw : (s.unit n).windowsInOrder with _ | _
  · rw [popEngine_of_inverted f hw] at h
    cases h
  · rw [popEngine_of_inOrder f hw] at h
    injection h with h
    exact ⟨rfl, _, engineOf_of_inOrder hw, h.symm⟩

/-- A caller with nothing to present has no next presentation. -/
theorem nextPresentation_of_nil {s : State} (h : s.pending = []) : nextPresentation s = none := by
  simp [nextPresentation, h]

/-- The caller's oldest presentation is made first. -/
theorem nextPresentation_of_cons {s : State} {p : Presentation} {rest : List Presentation}
    (h : s.pending = p :: rest) :
    nextPresentation s = some (p, { s with pending := rest }) := by
  simp [nextPresentation, h]

/-- A step's three cases: nothing presented, an operation performed, a reserved select refused. -/
theorem step_cases (s : State) :
    (s.pending = [] ∧ step s = .next s) ∨
    (∃ p rest i, s.pending = p :: rest ∧ decode p = .ok i ∧
      step s = exec i { s with pending := rest }) ∨
    (∃ p rest, s.pending = p :: rest ∧ decode p = .error (.reservedSelect p.sel) ∧
      step s = .refused (.reservedSelect p.sel)) := by
  rcases hq : s.pending with _ | ⟨p, rest⟩
  · exact .inl ⟨rfl, by simp [step, nextPresentation_of_nil hq]⟩
  · right
    have hs := nextPresentation_of_cons hq
    rcases hd : decode p with e | i
    · right
      have he : e = .reservedSelect p.sel := by
        unfold decode at hd
        dsimp only at hd
        split at hd <;> simp_all
      subst he
      exact ⟨p, rest, rfl, hd, by simp [step, hs, hd]⟩
    · exact .inl ⟨p, rest, i, rfl, hd, by simp [step, hs, hd]⟩

/-- A meaning's outcome in one of the four shapes: a write, a stored read, or with the windows in order a read of the
engine or a pop; else the refusal of an inverted window. -/
theorem exec_cases (i : Instr) (s : State) :
    (∃ f, exec i s = writeUnit i.unitOf f s ∧ i.isWrite = true ∧ i.needsEngine = false) ∨
    (∃ f, exec i s = readStored i.unitOf f s ∧ i.isWrite = false ∧ i.needsEngine = false ∧
      i.isPop = false) ∨
    (∃ f, exec i s = readEngine i.unitOf f s ∧ i.isWrite = false ∧ i.needsEngine = true ∧
      i.isPop = false) ∨
    (∃ f, exec i s = popEngine i.unitOf f s ∧ i.isWrite = false ∧ i.needsEngine = true ∧
      i.isPop = true) := by
  cases i with
  | readAccum0 n => exact .inr (.inl ⟨fun u => u.accum0, rfl, rfl, rfl, rfl⟩)
  | readAccum1 n => exact .inr (.inl ⟨fun u => u.accum1, rfl, rfl, rfl, rfl⟩)
  | readBase0 n => exact .inr (.inl ⟨fun u => u.base0, rfl, rfl, rfl, rfl⟩)
  | readBase1 n => exact .inr (.inl ⟨fun u => u.base1, rfl, rfl, rfl, rfl⟩)
  | readBase2 n => exact .inr (.inl ⟨fun u => u.base2, rfl, rfl, rfl, rfl⟩)
  | readPop0 n => exact .inr (.inr (.inr ⟨fun e => e.peek0, rfl, rfl, rfl, rfl⟩))
  | readPop1 n => exact .inr (.inr (.inr ⟨fun e => e.peek1, rfl, rfl, rfl, rfl⟩))
  | readPop2 n => exact .inr (.inr (.inr ⟨fun e => e.peek2, rfl, rfl, rfl, rfl⟩))
  | readPeek0 n => exact .inr (.inr (.inl ⟨fun e => e.peek0, rfl, rfl, rfl, rfl⟩))
  | readPeek1 n => exact .inr (.inr (.inl ⟨fun e => e.peek1, rfl, rfl, rfl, rfl⟩))
  | readPeek2 n => exact .inr (.inr (.inl ⟨fun e => e.peek2, rfl, rfl, rfl, rfl⟩))
  | readCtrl0 n =>
    exact .inr (.inr (.inl
      ⟨fun e => wordOfConfig (s.unit n).ctrl0 e.overf0 e.overf1 e.overf, rfl, rfl, rfl, rfl⟩))
  | readCtrl1 n =>
    exact .inr (.inl ⟨fun u => wordOfConfig u.ctrl1 false false false, rfl, rfl, rfl, rfl⟩)
  | readPeekraw0 n => exact .inr (.inr (.inl ⟨fun e => e.peekraw0, rfl, rfl, rfl, rfl⟩))
  | readPeekraw1 n => exact .inr (.inr (.inl ⟨fun e => e.peekraw1, rfl, rfl, rfl, rfl⟩))
  | writeAccum0 n v => exact .inl ⟨fun u => { u with accum0 := v }, rfl, rfl, rfl⟩
  | writeAccum1 n v => exact .inl ⟨fun u => { u with accum1 := v }, rfl, rfl, rfl⟩
  | writeBase0 n v => exact .inl ⟨fun u => { u with base0 := v }, rfl, rfl, rfl⟩
  | writeBase1 n v => exact .inl ⟨fun u => { u with base1 := v }, rfl, rfl, rfl⟩
  | writeBase2 n v => exact .inl ⟨fun u => { u with base2 := v }, rfl, rfl, rfl⟩
  | writeCtrl0 n w => exact .inl ⟨fun u => { u with ctrl0 := configOfWord w }, rfl, rfl, rfl⟩
  | writeCtrl1 n w => exact .inl ⟨fun u => { u with ctrl1 := configOfWord w }, rfl, rfl, rfl⟩
  | writeAdd0 n v => exact .inl ⟨fun u => { u with accum0 := u.accum0 + v }, rfl, rfl, rfl⟩
  | writeAdd1 n v => exact .inl ⟨fun u => { u with accum1 := u.accum1 + v }, rfl, rfl, rfl⟩
  | writeBase01 n v => exact .inl ⟨packedBases (s.params.capOf n) v, rfl, rfl, rfl⟩

end Sys2Proof.Machine
end

