-- ==== Sys2Proof/Laws/PerInstr.lean ====
section
/-! SUPPORT. A statement for all operations, made per operation: every operation's presentation has a select that is not
reserved, and names the operation's own unit (spec/30_encoding.md R55, R57). -/

namespace Sys2Proof

/-- No operation's select is a reserved one. -/
theorem encode_wf (i : Instr) : (encode i).wf = true := by
  cases i <;> simp [encode, Presentation.wf, selReserved]

end Sys2Proof

namespace Sys2Proof.Laws.EncodesLegal

/-- The presentation of `i` is well formed, as `i` is, and selects `i`'s unit. -/
def Statement (i : Instr) : Prop :=
  i.wf = true ∧ (encode i).wf = true ∧ (encode i).n = i.unitOf.toBit

theorem readAccum0 (n : UnitId) : Statement (.readAccum0 n) :=
  ⟨rfl, encode_wf _, rfl⟩

theorem readAccum1 (n : UnitId) : Statement (.readAccum1 n) :=
  ⟨rfl, encode_wf _, rfl⟩

theorem readBase0 (n : UnitId) : Statement (.readBase0 n) :=
  ⟨rfl, encode_wf _, rfl⟩

theorem readBase1 (n : UnitId) : Statement (.readBase1 n) :=
  ⟨rfl, encode_wf _, rfl⟩

theorem readBase2 (n : UnitId) : Statement (.readBase2 n) :=
  ⟨rfl, encode_wf _, rfl⟩

theorem readPop0 (n : UnitId) : Statement (.readPop0 n) :=
  ⟨rfl, encode_wf _, rfl⟩

theorem readPop1 (n : UnitId) : Statement (.readPop1 n) :=
  ⟨rfl, encode_wf _, rfl⟩

theorem readPop2 (n : UnitId) : Statement (.readPop2 n) :=
  ⟨rfl, encode_wf _, rfl⟩

theorem readPeek0 (n : UnitId) : Statement (.readPeek0 n) :=
  ⟨rfl, encode_wf _, rfl⟩

theorem readPeek1 (n : UnitId) : Statement (.readPeek1 n) :=
  ⟨rfl, encode_wf _, rfl⟩

theorem readPeek2 (n : UnitId) : Statement (.readPeek2 n) :=
  ⟨rfl, encode_wf _, rfl⟩

theorem readCtrl0 (n : UnitId) : Statement (.readCtrl0 n) :=
  ⟨rfl, encode_wf _, rfl⟩

theorem readCtrl1 (n : UnitId) : Statement (.readCtrl1 n) :=
  ⟨rfl, encode_wf _, rfl⟩

theorem readPeekraw0 (n : UnitId) : Statement (.readPeekraw0 n) :=
  ⟨rfl, encode_wf _, rfl⟩

theorem readPeekraw1 (n : UnitId) : Statement (.readPeekraw1 n) :=
  ⟨rfl, encode_wf _, rfl⟩

theorem writeAccum0 (n : UnitId) (v : Word) : Statement (.writeAccum0 n v) :=
  ⟨rfl, encode_wf _, rfl⟩

theorem writeAccum1 (n : UnitId) (v : Word) : Statement (.writeAccum1 n v) :=
  ⟨rfl, encode_wf _, rfl⟩

theorem writeBase0 (n : UnitId) (v : Word) : Statement (.writeBase0 n v) :=
  ⟨rfl, encode_wf _, rfl⟩

theorem writeBase1 (n : UnitId) (v : Word) : Statement (.writeBase1 n v) :=
  ⟨rfl, encode_wf _, rfl⟩

theorem writeBase2 (n : UnitId) (v : Word) : Statement (.writeBase2 n v) :=
  ⟨rfl, encode_wf _, rfl⟩

theorem writeCtrl0 (n : UnitId) (v : Word) : Statement (.writeCtrl0 n v) :=
  ⟨rfl, encode_wf _, rfl⟩

theorem writeCtrl1 (n : UnitId) (v : Word) : Statement (.writeCtrl1 n v) :=
  ⟨rfl, encode_wf _, rfl⟩

theorem writeAdd0 (n : UnitId) (v : Word) : Statement (.writeAdd0 n v) :=
  ⟨rfl, encode_wf _, rfl⟩

theorem writeAdd1 (n : UnitId) (v : Word) : Statement (.writeAdd1 n v) :=
  ⟨rfl, encode_wf _, rfl⟩

theorem writeBase01 (n : UnitId) (v : Word) : Statement (.writeBase01 n v) :=
  ⟨rfl, encode_wf _, rfl⟩

end Sys2Proof.Laws.EncodesLegal
end

