-- ==== Sys2Proof/Laws/Text.lean ====
section
/-! SUPPORT. What a line of text expands to and answers, said once (spec/44_pseudo_ops.md R161 to R163, R168). -/

namespace Sys2Proof.Machine

/-- A line that is not well formed stands for no operation. -/
theorem Line.expand_of_not_wf {l : Line} (h : l.wf = false) : l.expand = [] := by
  cases l with
  | write n r v => cases r <;> first | rfl | cases h
  | read n r e => cases r <;> first | rfl | cases h
  | state n w => cases h
  | dump n e => simp [Line.expand, h]

/-- A line that is not well formed reaches no unit: the caller presents nothing for it. -/
theorem presentLine_of_not_wf {l : Line} (h : l.wf = false) (s : State) : presentLine l s = s := by
  simp [presentLine, Line.expand_of_not_wf h]

/-- A line that is not well formed has no answer in the model. -/
theorem Line.answer_of_not_wf {l : Line} (h : l.wf = false) (vs : List Word) : l.answer vs = none := by
  cases l <;> simp [Line.answer, h]

/-- A `dump` with an expectation performs the plain `dump`'s reads exactly when it compares twelve values. -/
theorem Line.expand_dump_compare (n : UnitId) (es : List Word) :
    (Line.dump n (some es)).expand = if es.length = 12 then dumpReads n else [] := by
  simp [Line.expand, Line.wf]

/-- The answer of a comparison: `ok` on equality, else the exclusive-or of each pair. -/
theorem answerTo_some (es vs : List Word) :
    answerTo (some es) vs = if vs = es then .ok else .diff (List.zipWith (· ^^^ ·) vs es) := rfl

end Sys2Proof.Machine
end

