-- ==== Sys2Proof/Tests/Slice0.lean ====
section
/-! SUPPORT. The model's own tests: ill-formed terms refused, presentations written out from the spec's table, one step of
each operation against the vectors of spec/95_test_vectors.md (the vector's id stands in each comment), and for every
statement with hypotheses a state and operands that meet them. -/

namespace Sys2Proof.Tests

open Sys2Proof.Machine

/-! ### Builders -/

/-- A unit from its seven words, the control words in format C. -/
def mkUnit (a0 a1 b0 b1 b2 c0 c1 : Word) : InterpUnit :=
  ⟨a0, a1, b0, b1, b2, configOfWord c0, configOfWord c1⟩

/-- A machine whose unit 0 is `u`, blend-capable when `b` is unit 0 and clamp-capable otherwise. -/
def mkState (g : Gen) (b : UnitId) (d : BlendDiv) (u : InterpUnit) : State :=
  ⟨⟨g, b, d⟩, u, InterpUnit.reset, none, []⟩

/-- Unit 0 blend-capable, RP2040, truncating. -/
def blendState (u : InterpUnit) : State := mkState .rp2040 .unit0 .trunc u

/-- Unit 0 clamp-capable, RP2040, truncating. -/
def clampState (u : InterpUnit) : State := mkState .rp2040 .unit1 .trunc u

/-- The state after an operation, if it completes. -/
def after (i : Instr) (s : State) : Option State :=
  match exec i s with
  | .next t => some t
  | .fault _ => none
  | .refused _ => none

/-- The data word an operation drives. -/
def read (i : Instr) (s : State) : Option Word := (after i s).bind State.rdata

/-- Why an operation is refused. -/
def refusalOf (i : Instr) (s : State) : Option Refusal :=
  match exec i s with
  | .next _ => none
  | .fault _ => none
  | .refused r => some r

/-- State E1 of 41_engine.md. -/
def e1 : State := blendState (mkUnit 0x12345678 0 0x1000 0 0x100 0x0000A888 0)

/-! ### Well-formedness -/

/-- 30_encoding.md R57: the seven reserved selects, and no other, are ill formed. -/
theorem test_reserved_selects_refused :
    ∀ sel : BitVec 5, (Presentation.mk 0#1 sel 0#32).wf =
      !([0x0F, 0x15, 0x16, 0x17, 0x18, 0x19, 0x1A].contains sel.toNat) := by decide

/-- 44_pseudo_ops.md R168: a register name on the wrong command, both ways. -/
theorem test_register_on_wrong_command_refused :
    (Line.write .unit0 .pop0 1#32).wf = false ∧ (Line.read .unit0 .base01 none).wf = false := by decide

/-- 44_pseudo_ops.md R162: a compare of eleven values. -/
theorem test_short_dump_refused :
    (Line.dump .unit0 (some (List.replicate 11 0#32))).wf = false ∧
    (Line.dump .unit0 (some (List.replicate 12 0#32))).wf = true := by decide

/-- 41_engine.md R85: window 10 to 4 is inverted, window 4 to 4 is not (vectors K9, MK2). -/
theorem test_window_order :
    (configOfWord 0x00001140#32).windowInOrder = false ∧
    (configOfWord 0x00009080#32).windowInOrder = true := by decide

/-! ### Presentations written out from 30_encoding.md R55 -/

theorem test_decode_plain_reads :
    decode ⟨0#1, 0b00000#5, 0#32⟩ = .ok (.readAccum0 .unit0) ∧
    decode ⟨1#1, 0b00001#5, 0#32⟩ = .ok (.readAccum1 .unit1) ∧
    decode ⟨0#1, 0b00010#5, 9#32⟩ = .ok (.readBase0 .unit0) ∧
    decode ⟨0#1, 0b00011#5, 0#32⟩ = .ok (.readBase1 .unit0) ∧
    decode ⟨0#1, 0b00100#5, 0#32⟩ = .ok (.readBase2 .unit0) := ⟨rfl, rfl, rfl, rfl, rfl⟩

theorem test_decode_pops :
    decode ⟨0#1, 0b00101#5, 0#32⟩ = .ok (.readPop0 .unit0) ∧
    decode ⟨0#1, 0b00110#5, 0#32⟩ = .ok (.readPop1 .unit0) ∧
    decode ⟨1#1, 0b00111#5, 0#32⟩ = .ok (.readPop2 .unit1) := ⟨rfl, rfl, rfl⟩

theorem test_decode_peeks :
    decode ⟨0#1, 0b01000#5, 0#32⟩ = .ok (.readPeek0 .unit0) ∧
    decode ⟨0#1, 0b01001#5, 0#32⟩ = .ok (.readPeek1 .unit0) ∧
    decode ⟨0#1, 0b01010#5, 0#32⟩ = .ok (.readPeek2 .unit0) ∧
    decode ⟨0#1, 0b01101#5, 0#32⟩ = .ok (.readPeekraw0 .unit0) ∧
    decode ⟨1#1, 0b01110#5, 0#32⟩ = .ok (.readPeekraw1 .unit1) := ⟨rfl, rfl, rfl, rfl, rfl⟩

theorem test_decode_control :
    decode ⟨0#1, 0b01011#5, 0#32⟩ = .ok (.readCtrl0 .unit0) ∧
    decode ⟨0#1, 0b01100#5, 0#32⟩ = .ok (.readCtrl1 .unit0) ∧
    decode ⟨0#1, 0b11011#5, 0x407C00#32⟩ = .ok (.writeCtrl0 .unit0 0x407C00#32) ∧
    decode ⟨1#1, 0b11100#5, 0x207C00#32⟩ = .ok (.writeCtrl1 .unit1 0x207C00#32) := ⟨rfl, rfl, rfl, rfl⟩

theorem test_decode_writes :
    decode ⟨0#1, 0b10000#5, 5#32⟩ = .ok (.writeAccum0 .unit0 5#32) ∧
    decode ⟨1#1, 0b10001#5, 6#32⟩ = .ok (.writeAccum1 .unit1 6#32) ∧
    decode ⟨0#1, 0b10010#5, 10#32⟩ = .ok (.writeBase0 .unit0 10#32) ∧
    decode ⟨0#1, 0b10011#5, 20#32⟩ = .ok (.writeBase1 .unit0 20#32) ∧
    decode ⟨0#1, 0b10100#5, 30#32⟩ = .ok (.writeBase2 .unit0 30#32) ∧
    decode ⟨0#1, 0b11101#5, 3#32⟩ = .ok (.writeAdd0 .unit0 3#32) ∧
    decode ⟨0#1, 0b11110#5, 4#32⟩ = .ok (.writeAdd1 .unit0 4#32) ∧
    decode ⟨0#1, 0b11111#5, 0x8000FFFF#32⟩ = .ok (.writeBase01 .unit0 0x8000FFFF#32) :=
  ⟨rfl, rfl, rfl, rfl, rfl, rfl, rfl, rfl⟩

theorem test_decode_reserved :
    decode ⟨0#1, 0b01111#5, 0#32⟩ = .error (.reservedSelect 0x0F#5) ∧
    decode ⟨0#1, 0b10101#5, 0#32⟩ = .error (.reservedSelect 0x15#5) ∧
    decode ⟨0#1, 0b11010#5, 0#32⟩ = .error (.reservedSelect 0x1A#5) := ⟨rfl, rfl, rfl⟩

theorem test_decode_table_word :
    decodeTableWord 8 0x1F = some (.writeBase01 .unit0 0#32) ∧ decodeTableWord 8 0x05 = some (.readPop0 .unit0) ∧
    decodeTableWord 8 0x0F = none ∧ decodeTableWord 8 0x25 = none := by decide

/-! ### The codec (vectors K3, K6, K8) -/

theorem test_codec_fields :
    decodeCtrl 0x12345678#32 =
      ⟨⟨24#5, 19#5, 21#5, false, false, false, true, 2#2, true, false⟩, false, false, true, 4#6⟩ := by decide

theorem test_codec_reserved_cleared :
    encodeCtrl (decodeCtrl 0xFFFFFFFF#32) = 0x03FFFFFF#32 ∧
    encodeCtrl (decodeCtrl 0x0004244E#32) = 0x0004244E#32 := by decide

/-! ### Writes -/

/-- W1. -/
theorem test_write_accum0 :
    (after (.writeAccum0 .unit0 5#32) e1).map (fun t => (t.unit0.accum0, t.unit0.accum1, t.rdata)) =
      some (5#32, 0#32, none) := by decide

/-- W1. -/
theorem test_write_accum1 :
    (after (.writeAccum1 .unit0 0x80#32) e1).map (fun t => (t.unit0.accum0, t.unit0.accum1)) =
      some (0x12345678#32, 0x80#32) := by decide

/-- W2; the other unit keeps its value. -/
theorem test_write_base0 :
    (after (.writeBase0 .unit1 10#32) e1).map (fun t => (t.unit0.base0, t.unit1.base0)) =
      some (0x1000#32, 10#32) := by decide

/-- W2. -/
theorem test_write_base1 :
    (after (.writeBase1 .unit0 20#32) e1).map (fun t => (t.unit0.base0, t.unit0.base1)) =
      some (0x1000#32, 20#32) := by decide

/-- W2. -/
theorem test_write_base2 :
    (after (.writeBase2 .unit0 0x101#32) e1).map (fun t => (t.unit0.base1, t.unit0.base2)) =
      some (0#32, 0x101#32) := by decide

/-- The example of 42_write_ops.md R115. -/
theorem test_write_ctrl0 :
    (after (.writeCtrl0 .unit0 0x00407C00#32) e1).map (fun t => t.unit0.ctrl0) =
      some ⟨0#5, 0#5, 31#5, false, false, false, false, 0#2, false, true⟩ := by decide

/-- The example of 42_write_ops.md R116. -/
theorem test_write_ctrl1 :
    (after (.writeCtrl1 .unit0 0x00207C00#32) e1).map (fun t => (t.unit0.ctrl1, t.unit0.ctrl0.shift)) =
      some (⟨0#5, 0#5, 31#5, false, false, false, false, 0#2, true, false⟩, 8#5) := by decide

/-- W7: adding 0xFFFFFFFF subtracts 1. -/
theorem test_write_add0 :
    (after (.writeAdd0 .unit0 0xFFFFFFFF#32) (blendState (mkUnit 8 3 0 0 0 0 0))).map
      (fun t => (t.unit0.accum0, t.unit0.accum1)) = some (7#32, 3#32) := by decide

/-- W6: the sum wraps. -/
theorem test_write_add1 :
    (after (.writeAdd1 .unit0 0x20#32) (blendState (mkUnit 5 0xFFFFFFF0 0 0 0 0 0))).map
      (fun t => (t.unit0.accum0, t.unit0.accum1)) = some (5#32, 0x10#32) := by decide

/-- W14: on a blend-capable unit with lane 1's `blend` set, `base[0]` follows lane 1's `is_signed`. -/
theorem test_write_base01_blend :
    (after (.writeBase01 .unit0 0x8000FFFF#32) (blendState (mkUnit 0 0 0 0 0x33333333 0x8000 0x200000))).map
      (fun t => (t.unit0.base0, t.unit0.base1, t.unit0.base2)) =
      some (0x0000FFFF#32, 0x00008000#32, 0x33333333#32) := by decide

/-- W17: on a clamp-capable unit it follows lane 0's. -/
theorem test_write_base01_clamp :
    (after (.writeBase01 .unit0 0x8000FFFF#32) (clampState (mkUnit 0 0 0 0 0 0 0x208000))).map
      (fun t => (t.unit0.base0, t.unit0.base1)) = some (0x0000FFFF#32, 0xFFFF8000#32) := by decide

/-! ### Reads -/

theorem test_read_accums : read (.readAccum0 .unit0) e1 = some 0x12345678#32 ∧
    read (.readAccum1 .unit0) e1 = some 0#32 := by decide

theorem test_read_bases : read (.readBase0 .unit0) e1 = some 0x1000#32 ∧
    read (.readBase1 .unit0) e1 = some 0#32 ∧ read (.readBase2 .unit0) e1 = some 0x100#32 := by decide

/-- The example of 43_read_ops.md R135. -/
theorem test_read_ctrl0 : read (.readCtrl0 .unit0) e1 = some 0x0280A888#32 := by decide

/-- R1: both lanes overflow. -/
theorem test_read_ctrl0_both :
    read (.readCtrl0 .unit0) (blendState (mkUnit 0x100 0x200 0 0 0 0x1C00 0x2000)) = some 0x03801C00#32 := by decide

/-- R1: lane 1's overflow is not in `CTRL1`; X4: it reads while the window is inverted. -/
theorem test_read_ctrl1 :
    read (.readCtrl1 .unit0) (blendState (mkUnit 0x100 0x200 0 0 0 0x1C00 0x2000)) = some 0x2000#32 ∧
    read (.readCtrl1 .unit0) (blendState (mkUnit 0 0 0 0 0 0 0x1140)) = some 0x1140#32 := by decide

/-- E1; CL12: crossed bounds. -/
theorem test_read_peek0 : read (.readPeek0 .unit0) e1 = some 0xC50#32 ∧
    read (.readPeek0 .unit0) (clampState (mkUnit 15 0 20 10 0 0x407C00 0x7C00)) = some 20#32 := by decide

/-- SH8 on both generations. -/
theorem test_generations :
    read (.readPeek0 .unit0) (mkState .rp2040 .unit0 .trunc (mkUnit 0x80000001 0 0 0 0 0x7C08 0)) =
      some 0x00800000#32 ∧
    read (.readPeek0 .unit0) (mkState .rp2350 .unit0 .trunc (mkUnit 0x80000001 0 0 0 0 0x7C08 0)) =
      some 0x01800000#32 := by decide

/-- B5; B8 and B9: the vector that tells `trunc` from `floor`. -/
theorem test_read_peek1 :
    read (.readPeek1 .unit0) (blendState (mkUnit 0 1 1000 200 0 0x7C00 0x207C00)) = some 996#32 ∧
    read (.readPeek1 .unit0) (mkState .rp2040 .unit0 .trunc (mkUnit 0 0x80 0 0xFFFFFFFF 0 0x7C00 0x20FC00)) =
      some 0#32 ∧
    read (.readPeek1 .unit0) (mkState .rp2040 .unit0 .floor (mkUnit 0 0x80 0 0xFFFFFFFF 0 0x7C00 0x20FC00)) =
      some 0xFFFFFFFF#32 := by decide

/-- E1; B20: blend mode drops lane 1's term. -/
theorem test_read_peek2 : read (.readPeek2 .unit0) e1 = some 0xFFFFFD50#32 ∧
    read (.readPeek2 .unit0) (blendState (mkUnit 5 0x80 0 256 1000 0x7C00 0x207C00)) = some 0x3ED#32 := by decide

/-- E1; CI2: the lanes swap accumulators. -/
theorem test_read_peekraw0 : read (.readPeekraw0 .unit0) e1 = some 0xFFFFFC50#32 ∧
    read (.readPeekraw0 .unit0) (blendState (mkUnit 0x11 0x22 0 0 0 0x17C00 0x17C00)) = some 0x22#32 := by decide

/-- MK6. -/
theorem test_read_peekraw1 :
    read (.readPeekraw1 .unit0) (blendState (mkUnit 0 0xF0 0 5 0 0 0xC04)) = some 0xF#32 := by decide

/-- P-h: the force bits are written back. -/
theorem test_read_pop0 :
    (after (.readPop0 .unit0) (blendState (mkUnit 0 0 0 0 0 0x87C00 0x7C00))).map
      (fun t => (t.rdata, t.unit0.accum0)) = some (some 0x10000000#32, 0x10000000#32) := by decide

/-- P-f: both lanes cross their results. -/
theorem test_read_pop1 :
    (after (.readPop1 .unit0) (blendState (mkUnit 1 2 0x10 0x20 0 0x27C00 0x27C00))).map
      (fun t => (t.rdata, t.unit0.accum0, t.unit0.accum1)) = some (some 0x22#32, 0x22#32, 0x11#32) := by decide

/-- P-j: in blend mode the accumulators receive `alpha` and the blend value. -/
theorem test_read_pop2 :
    (after (.readPop2 .unit0) (blendState (mkUnit 9 0x80 0 256 0 0x7C00 0x207C00))).map
      (fun t => (t.rdata, t.unit0.accum0, t.unit0.accum1)) = some (some 9#32, 0x80#32, 0x80#32) := by decide

/-- X3, X5: refused while either window is inverted. -/
theorem test_inverted_refused :
    refusalOf (.readPop0 .unit0) (blendState (mkUnit 0 0 0 0 0 0x1140 0)) = some (.invertedWindow .unit0) ∧
    refusalOf (.readPeekraw0 .unit0) (blendState (mkUnit 0 0 0 0 0 0 0x1140)) = some (.invertedWindow .unit0) := by
  decide

/-! ### Text -/

/-- The line of 95_test_vectors.md S8, its register name in capitals. -/
theorem test_parse_line :
    (parseLine "write 0 CTRL0 0x00407C00".toList).toOption =
      some (.write .unit0 .ctrl0 0x407C00#32) ∧
    (parseLine "read 1 pop0".toList).toOption = some (.read .unit1 .pop0 none) := by decide

/-- 44_pseudo_ops.md R168. -/
theorem test_parse_rejections :
    (parseLine "read 0 add0".toList).toOption = none ∧ (parseLine "write 0 base0 12z".toList).toOption = none ∧
    (parseLine "write 2 base0 1".toList).toOption = none ∧ (parseLine "poke 0".toList).toOption = none := by decide

/-- 30_encoding.md R63: the one printed answer of the source. -/
theorem test_spell_answer : spellAnswer (.data [10#32]) = "data 0xa".toList := by decide

/-! ### Witnesses: a state and operands that meet each statement's hypotheses -/

/-- A full-window unit: both windows 0 to 31. -/
def full : State := blendState (mkUnit 0x11 0x22 1 2 3 0x7C00 0x7C00)

theorem witness_DecodeOfEncodeIsTheOperation :
    (Instr.writeAdd0 .unit1 3#32).wf = true ∧
    decode ⟨1#1, 0x1D#5, 3#32⟩ = .ok (.writeAdd0 .unit1 3#32) := ⟨rfl, rfl⟩

theorem witness_EverySelectIsAnOperationOrReserved :
    (Presentation.mk 0#1 0x1B#5 0#32).wf = true ∧ (Presentation.mk 0#1 0x1A#5 0#32).wf = false := by decide

theorem witness_WindowAndAboveSetExactlyTheirBits : (31#5).toNat ≤ (31#5).toNat := by decide

theorem witness_ShiftedIsTheSelectedInputShiftedOrRotated :
    (full.unit0.ctrl .lane0).shift = 0#5 ∧ (full.unit0.ctrl .lane1).shift = 0#5 := by decide

/-- A one-bit window, so that each bound of the range meets it (bit 4 inside, bits 3 and 5 outside), and a second unit with
the same lane. -/
theorem witness_MaskedValueIsTheShiftedValueInItsWindow :
    let u := mkUnit 0x10 0 0 0 0 0x9080 0
    let u' := mkUnit 0x10 7 1 2 3 0x1080 5
    (u.ctrl .lane0).windowInOrder = true ∧
    ((u.ctrl .lane0).maskLsb.toNat ≤ 4 ∧ 4 ≤ (u.ctrl .lane0).maskMsb.toNat) ∧
    (3 < (u.ctrl .lane0).maskLsb.toNat ∧ (u.ctrl .lane0).maskMsb.toNat < 5) ∧
    laneInput u' .lane0 = laneInput u .lane0 ∧ (u'.ctrl .lane0).shift = (u.ctrl .lane0).shift ∧
    (u'.ctrl .lane0).maskLsb = (u.ctrl .lane0).maskLsb ∧ (u'.ctrl .lane0).maskMsb = (u.ctrl .lane0).maskMsb := by
  decide

theorem witness_OverflowFlagsSeeBitsAboveTheWindow :
    (engine .rp2350 .clampCapable .floor full.unit0).isSome = true ∧ full.unit0.ctrl0.maskMsb = 31#5 ∧
    full.unit0.ctrl1.maskMsb = 31#5 := by decide

theorem witness_SignedResultCopiesTheBitAtMaskMsb :
    ((e1.unit .unit0).ctrl .lane0).windowInOrder = true ∧ (10 ≤ ((e1.unit .unit0).ctrl .lane0).maskMsb.toNat) ∧
    ¬ (11 ≤ ((e1.unit .unit0).ctrl .lane0).maskMsb.toNat) := by decide

/-- Equal bounds, in each comparison. -/
theorem witness_ClampLimitsToOrderedBounds :
    let u := mkUnit 0 0 0xFFFFFFFF 0xFFFFFFFF 0 0x8000 0
    let u' := mkUnit 0 0 7 7 0 0 0
    (u.ctrl0.isSigned = true ∧ s32 u.base0 ≤ s32 u.base1) ∧
    (u'.ctrl0.isSigned = false ∧ u'.base0.toNat ≤ u'.base1.toNat) := by decide

/-- Bounds crossed by one, in each comparison. -/
theorem witness_CrossedClampBoundsTestTheLowerFirst :
    let u := mkUnit 0 0 0 0xFFFFFFFF 0 0x8000 0
    let u' := mkUnit 0 0 1 0 0 0 0
    (u.ctrl0.isSigned = true ∧ s32 u.base1 < s32 u.base0) ∧
    (u'.ctrl0.isSigned = false ∧ u'.base1.toNat < u'.base0.toNat) := by decide

/-- Products -128 (no multiple of 256), -256 (a multiple) and 0. -/
theorem witness_SignedBlendRoundingsDifferOnNegativeProductsOnly :
    ((128#8).toNat * (s32 0xFFFFFFFF#32 - s32 0#32) < 0 ∧
      (128#8).toNat * (s32 0xFFFFFFFF#32 - s32 0#32) % 256 ≠ 0) ∧
    ((128#8).toNat * (s32 0xFFFFFFFE#32 - s32 0#32) < 0 ∧
      (128#8).toNat * (s32 0xFFFFFFFE#32 - s32 0#32) % 256 = 0) ∧
    0 ≤ (0#8).toNat * (s32 0xFFFFFFFF#32 - s32 0#32) := by decide

theorem witness_PresentationsFollowTheMode :
    (engine .rp2040 .blendCapable .trunc e1.unit0).isSome = true := by decide

theorem witness_GenerationsAgreeWithoutAShift :
    full.unit0.ctrl0.shift = 0#5 ∧ full.unit0.ctrl1.shift = 0#5 := by decide

/-- One-bit windows are in order (vector X6), and so meet the hypothesis of the reads of the engine and the pops:
`ReadCtrl0ReturnsTheFieldsAndFlags`, `PeeksReturnTheEngineResults`, `LanePopsReturnAndWriteBack`,
`FullPopReturnsAndWritesBack`, `DumpReadsTwelveValuesAndChangesNothing` (first clause). -/
theorem witness_windows_in_order : ((blendState (mkUnit 1 1 0 0 0 0x1080 0)).unit .unit0).windowsInOrder = true := by
  decide

/-- An inverted window: `DumpReadsTwelveValuesAndChangesNothing` (second clause) and the refusals of
`RefusedExactlyWhileTheEngineIsNeededAndInverted`. -/
theorem witness_window_inverted :
    ((blendState (mkUnit 1 1 0 0 0 0x1140 0)).unit .unit0).windowsInOrder = false := by decide

/-- A write, an add and a pop that change an accumulator. -/
theorem witness_AccumulatorsChangeOnlyByTheirWritersAndPops :
    (after (.writeAccum0 .unit0 5#32) full).map (fun t => t.unit0.accum0 != full.unit0.accum0) = some true ∧
    (after (.writeAdd1 .unit0 5#32) full).map (fun t => t.unit0.accum1 != full.unit0.accum1) = some true ∧
    (after (.readPop2 .unit0) full).map (fun t => t.unit0.accum0 != full.unit0.accum0) = some true := by decide

theorem witness_BasesChangeOnlyByTheirWriters :
    (after (.writeBase01 .unit0 5#32) full).map
      (fun t => (t.unit0.base0 != full.unit0.base0, t.unit0.base1 != full.unit0.base1)) = some (true, true) ∧
    (after (.writeBase2 .unit0 5#32) full).map (fun t => t.unit0.base2 != full.unit0.base2) = some true := by decide

theorem witness_ControlRecordsChangeOnlyByTheirWrites :
    (after (.writeCtrl0 .unit0 0#32) full).map (fun t => t.unit0.ctrl0 != full.unit0.ctrl0) = some true ∧
    (after (.writeCtrl1 .unit0 0#32) full).map (fun t => t.unit0.ctrl1 != full.unit0.ctrl1) = some true := by decide

/-- Also for `OperationsTouchTheirUnitOnly`: a write, a read and a pop that complete. -/
theorem witness_OnlyPopsAmongReadsChangeRegisters :
    (after (.writeBase0 .unit0 5#32) full).isSome = true ∧ (after (.readPeek0 .unit0) full).isSome = true ∧
    (after (.readPop0 .unit0) full).isSome = true := by decide

/-- Also for `PeekThenPopReturnsTheSameValue`: the three peeks complete. -/
theorem witness_ReadsWithoutSideEffectRepeat :
    (Instr.readPeek0 .unit0).isWrite = false ∧ (Instr.readPeek0 .unit0).isPop = false ∧
    (after (.readPeek0 .unit0) full).isSome = true ∧ (after (.readPeek1 .unit0) full).isSome = true ∧
    (after (.readPeek2 .unit0) full).isSome = true := by decide

/-- Two states that agree in unit 0 and its parameters and in nothing else. -/
theorem witness_OperationsDependOnTheirUnitOnly :
    let s' : State := { full with unit1 := mkUnit 9 9 9 9 9 9 9, rdata := some 4#32, pending := [⟨0#1, 0#5, 0#32⟩] }
    full.unit .unit0 = s'.unit .unit0 ∧ full.params.gen = s'.params.gen ∧
    full.params.capOf .unit0 = s'.params.capOf .unit0 ∧ full.params.blendDiv = s'.params.blendDiv ∧
    full ≠ s' := by decide

theorem witness_ControlWritesReadBack :
    (0x00000005#32 &&& 0x007FFFFF#32 = 0xFF800005#32 &&& 0x007FFFFF#32) ∧
    (after (.writeCtrl1 .unit0 0xFFFFFFFF#32) full).isSome = true ∧
    (after (.writeCtrl0 .unit0 0xFFFFFFFF#32) full).map (fun t => (t.unit .unit0).windowsInOrder) = some true := by
  decide

theorem witness_StepPerformsTheDecodedOperation :
    (presentNext ⟨0#1, 0x07#5, 0#32⟩ full).pending = ⟨0#1, 0x07#5, 0#32⟩ :: [] ∧
    decode ⟨0#1, 0x07#5, 0#32⟩ = .ok (.readPop2 .unit0) ∧ (Instr.readPop2 .unit0).wf = true := ⟨rfl, rfl, rfl⟩

theorem witness_StepsWithoutAnOperation :
    (presentNext ⟨0#1, 0x0F#5, 0#32⟩ full).pending = ⟨0#1, 0x0F#5, 0#32⟩ :: [] ∧
    (Presentation.mk 0#1 0x0F#5 0#32).wf = false ∧ full.pending = [] := by decide

/-- One step from the state after reset, whatever the open parameters are. -/
theorem witness_OneUnitBlendsAndParametersNeverChange :
    ∃ t, step (State.reset.withFetchWord 8 0x08) = .next t ∧ t.params = State.reset.params := ⟨_, rfl, rfl⟩

/-- A control write, a pop and a packed write pending, the first to the edge of the rule (window 4 to 4). -/
theorem witness_CallerContractIsKeptAndNeverRefused :
    ({ full with pending := [⟨0#1, 0x1B#5, 0x1080#32⟩, ⟨0#1, 0x05#5, 0#32⟩, ⟨1#1, 0x1F#5, 1#32⟩] } :
      State).callerContract = true := by decide

/-- The same state as `witness_CallerContractIsKeptAndNeverRefused`. -/
theorem witness_RunsUnderTheContractAreNeverRefused :
    ({ full with pending := [⟨0#1, 0x1B#5, 0x1080#32⟩] } : State).callerContract = true := by decide

theorem witness_StateLineSetsTheWholeUnitInAnyOrder :
    ((Line.state .unit0 ⟨1, 2, 3, 4, 5, 6, 7⟩).expand.reverse).Perm
      (Line.state .unit0 ⟨1, 2, 3, 4, 5, 6, 7⟩).expand := List.reverse_perm _

/-- A pop reads (and a write-only name does not), and twelve values read that differ from those expected. -/
theorem witness_CompareFormsAnswerOkOrTheDifference :
    (Line.read .unit0 .pop0 none).expand ≠ [] ∧ (Line.read .unit0 .base01 none).expand = [] ∧
    (List.replicate 12 1#32).length = 12 ∧ (List.replicate 12 0#32).length = 12 ∧
    List.replicate 12 0#32 ≠ List.replicate 12 1#32 ∧ (1#32 ≠ 2#32) := by decide

/-- Twelve values to compare, and one more or fewer. -/
theorem witness_DumpReadsTwelveValuesAndChangesNothing :
    (List.replicate 12 0#32).length = 12 ∧ (List.replicate 11 0#32).length ≠ 12 ∧
    (List.replicate 13 0#32).length ≠ 12 := by decide

end Sys2Proof.Tests
end

/-! The statements that rest on spec/00_scope.md: the two roundings of the signed blend (R6), the generations
without a shift (R2), an operation's dependence on its unit (R8) and the constancy of the parameters (R2 to R4). -/

namespace Sys2Proof.Machine

/-! ### The rounding of the signed blend -/

/-- The flooring rounding is division by the positive 256 with a remainder that is not negative. -/
theorem blendQuotient_floor (p : Int) : blendQuotient .floor p = p / 256 :=
  Int.fdiv_eq_ediv_of_nonneg p (by decide)

/-- Truncation is the floor, and one more for a negative product that leaves a remainder (00_scope.md R6). -/
theorem blendQuotient_trunc (p : Int) :
    blendQuotient .trunc p = blendQuotient .floor p + if 0 ≤ p ∨ p % 256 = 0 then 0 else 1 := by
  simp only [blendQuotient_floor, ← Int.dvd_iff_emod_eq_zero]
  exact Int.tdiv_eq_ediv

/-- The weight has 8 bits and two words are less than 2^32 apart (41_engine.md R95; log 11). -/
theorem natAbs_blendProduct_lt (b0 b1 : Word) (a : BitVec 8) :
    ((a.toNat : Int) * (s32 b1 - s32 b0)).natAbs < 2 ^ 40 := by
  have ha : a.toNat < 2 ^ 8 := a.isLt
  have hd : (s32 b1 - s32 b0).natAbs < 2 ^ 32 := by
    have h0 := b0.toInt_lt
    have h0' := b0.le_toInt
    have h1 := b1.toInt_lt
    have h1' := b1.le_toInt
    simp only [s32]
    omega
  calc ((a.toNat : Int) * (s32 b1 - s32 b0)).natAbs
      = a.toNat * (s32 b1 - s32 b0).natAbs := by rw [Int.natAbs_mul, Int.natAbs_natCast]
    _ < 2 ^ 8 * 2 ^ 32 := Nat.mul_lt_mul'' ha hd
    _ = 2 ^ 40 := by norm_num

/-- Truncating and flooring blends agree where their quotients do. -/
theorem blendSigned_trunc_eq_floor {b0 b1 : Word} {a : BitVec 8}
    (h : 0 ≤ (a.toNat : Int) * (s32 b1 - s32 b0) ∨ (a.toNat : Int) * (s32 b1 - s32 b0) % 256 = 0) :
    blendSigned .trunc b0 b1 a = blendSigned .floor b0 b1 a := by
  rw [blendSigned, blendQuotient_trunc, if_pos h, Int.add_zero, blendSigned]

/-- The truncating blend is one more, modulo 2^32, where its quotient is. -/
theorem blendSigned_trunc_eq_floor_add_one {b0 b1 : Word} {a : BitVec 8}
    (h : ¬ (0 ≤ (a.toNat : Int) * (s32 b1 - s32 b0) ∨ (a.toNat : Int) * (s32 b1 - s32 b0) % 256 = 0)) :
    blendSigned .trunc b0 b1 a = blendSigned .floor b0 b1 a + 1#32 := by
  rw [blendSigned, blendQuotient_trunc, if_neg h, ← Int.add_assoc, BitVec.ofInt_add, blendSigned]
  rfl

/-- Settles O20: the product's bound, and the two roundings by whether the quotients agree. -/
theorem signedBlendRoundingsDifferOnNegativeProductsOnly :
    Obligations.SignedBlendRoundingsDifferOnNegativeProductsOnly := by
  intro b0 b1 a p
  refine ⟨natAbs_blendProduct_lt b0 b1 a, rfl, blendSigned_trunc_eq_floor, fun hneg hrem => ?_⟩
  exact blendSigned_trunc_eq_floor_add_one (not_or.mpr ⟨Int.not_le.mpr hneg, hrem⟩)

/-! ### The generations -/

/-- A shift of 0 hands the lane's input on in both generations (41_engine.md R83). -/
theorem laneShifted_of_shift_zero (g : Gen) {u : InterpUnit} {i : Lane} (h : (u.ctrl i).shift = 0#5) :
    laneShifted g u i = laneInput u i := by
  rw [laneShifted, h, shiftStage_zero]

/-- A lane's signed result sees the generation through its shifted value only. -/
theorem laneSigned_congr_gen {g g' : Gen} {u : InterpUnit} {i : Lane}
    (h : laneShifted g u i = laneShifted g' u i) : laneSigned g u i = laneSigned g' u i := by
  simp only [laneSigned, laneMasked, h]

/-- A lane's flag sees the generation through its shifted value only. -/
theorem laneOverflow_congr_gen {g g' : Gen} {u : InterpUnit} {i : Lane}
    (h : laneShifted g u i = laneShifted g' u i) : laneOverflow g u i = laneOverflow g' u i := by
  simp only [laneOverflow, h]

/-- The shift stage is the one place where the generation matters (00_scope.md R2, 41_engine.md R83): two generations
with the same shifted values have the same result, or both none. -/
theorem engine_congr_gen {g g' : Gen} {u : InterpUnit} (cap : Cap) (div : BlendDiv)
    (h : ∀ i, laneShifted g u i = laneShifted g' u i) : engine g cap div u = engine g' cap div u := by
  have hs : ∀ i, laneSigned g u i = laneSigned g' u i := fun i => laneSigned_congr_gen (h i)
  have ho : ∀ i, laneOverflow g u i = laneOverflow g' u i := fun i => laneOverflow_congr_gen (h i)
  have hadd : ∀ i, laneAdd g u i = laneAdd g' u i := fun i => by simp only [laneAdd, hs]
  have halpha : blendAlpha g u = blendAlpha g' u := by simp only [blendAlpha, hs]
  have hp0 : lane0Present g cap u = lane0Present g' cap u := by
    simp only [lane0Present, clampValue, hs, hadd, halpha]
  have hp1 : lane1Present g cap div u = lane1Present g' cap div u := by
    simp only [lane1Present, blendValue, hadd, halpha]
  simp only [engine, engineResult, fullResult, unitOverflow, hs, ho, hp0, hp1]

/-- Settles O27: with both shifts 0 the shift stage hands on the same inputs in every generation. -/
theorem generationsAgreeWithoutAShift : Obligations.GenerationsAgreeWithoutAShift := by
  intro g g' cap div u h0 h1
  have hz : ∀ i : Lane, (u.ctrl i).shift = 0#5
    | .lane0 => h0
    | .lane1 => h1
  exact engine_congr_gen cap div fun i =>
    (laneShifted_of_shift_zero g (hz i)).trans (laneShifted_of_shift_zero g' (hz i)).symm

/-! ### What an operation sees of the state -/

/-- All that an operation on unit `n` may see of the state: the unit's registers, the generation, its capability and the
rounding (00_scope.md R8, 41_engine.md R103). -/
structure AgreeOn (n : UnitId) (s s' : State) : Prop where
  unit : s.unit n = s'.unit n
  gen : s.params.gen = s'.params.gen
  cap : s.params.capOf n = s'.params.capOf n
  div : s.params.blendDiv = s'.params.blendDiv

/-- What the caller of unit `n` sees of an outcome: the unit's registers with the driven data, or the reason of the
stop. -/
def observe (n : UnitId) :
    Host.Outcome State Fault Refusal → Host.Outcome (InterpUnit × Option Word) Fault Refusal
  | .next t => .next (t.unit n, t.rdata)
  | .fault f => .fault f
  | .refused r => .refused r

section Observe

variable (n : UnitId) (s : State)

theorem observe_writeUnit (f : InterpUnit → InterpUnit) :
    observe n (writeUnit n f s) = .next (f (s.unit n), none) := by
  simp [observe, writeUnit]

theorem observe_readStored (f : InterpUnit → Word) :
    observe n (readStored n f s) = .next (s.unit n, some (f (s.unit n))) := by
  simp [observe, readStored]

theorem observe_readEngine (f : EngineResult → Word) :
    observe n (readEngine n f s) =
      (s.engineOf n).elim (.refused (.invertedWindow n)) fun e => .next (s.unit n, some (f e)) := by
  cases h : s.engineOf n <;> simp [observe, readEngine, h]

theorem observe_popEngine (f : EngineResult → Word) :
    observe n (popEngine n f s) =
      (s.engineOf n).elim (.refused (.invertedWindow n)) fun e =>
        .next (writeback e (s.unit n), some (f e)) := by
  cases h : s.engineOf n <;> simp [observe, popEngine, h]

end Observe

section Agree

variable {n : UnitId} {s s' : State} (h : AgreeOn n s s')
include h

/-- States that agree on a unit have the same engine result for it. -/
theorem AgreeOn.engineOf_eq : s.engineOf n = s'.engineOf n := by
  simp only [State.engineOf, h.unit, h.gen, h.cap, h.div]

/-- A write that may look at the unit's capability. -/
theorem AgreeOn.observe_writeUnit (f : Cap → InterpUnit → InterpUnit) :
    observe n (writeUnit n (f (s.params.capOf n)) s) =
      observe n (writeUnit n (f (s'.params.capOf n)) s') := by
  simp only [Machine.observe_writeUnit, h.unit, h.cap]

theorem AgreeOn.observe_readStored (f : InterpUnit → Word) :
    observe n (readStored n f s) = observe n (readStored n f s') := by
  simp only [Machine.observe_readStored, h.unit]

/-- A read of the engine that may look at the unit's registers as well. -/
theorem AgreeOn.observe_readEngine (f : InterpUnit → EngineResult → Word) :
    observe n (readEngine n (f (s.unit n)) s) = observe n (readEngine n (f (s'.unit n)) s') := by
  simp only [Machine.observe_readEngine, h.unit, h.engineOf_eq]

theorem AgreeOn.observe_popEngine (f : EngineResult → Word) :
    observe n (popEngine n f s) = observe n (popEngine n f s') := by
  simp only [Machine.observe_popEngine, h.unit, h.engineOf_eq]

end Agree

/-- What is seen of an operation is the same in states that agree on its unit. Among the writes only
`WRITE_BASE01` looks at the capability; among the reads of the engine only `READ_CTRL0` looks at a register too. -/
theorem observe_exec_congr (i : Instr) {s s' : State} (h : AgreeOn i.unitOf s s') :
    observe i.unitOf (exec i s) = observe i.unitOf (exec i s') := by
  cases i with
  | readAccum0 => exact h.observe_readStored fun u => u.accum0
  | readAccum1 => exact h.observe_readStored fun u => u.accum1
  | readBase0 => exact h.observe_readStored fun u => u.base0
  | readBase1 => exact h.observe_readStored fun u => u.base1
  | readBase2 => exact h.observe_readStored fun u => u.base2
  | readPop0 => exact h.observe_popEngine fun e => e.peek0
  | readPop1 => exact h.observe_popEngine fun e => e.peek1
  | readPop2 => exact h.observe_popEngine fun e => e.peek2
  | readPeek0 => exact h.observe_readEngine fun _ e => e.peek0
  | readPeek1 => exact h.observe_readEngine fun _ e => e.peek1
  | readPeek2 => exact h.observe_readEngine fun _ e => e.peek2
  | readCtrl0 =>
    exact h.observe_readEngine fun u e => wordOfConfig u.ctrl0 e.overf0 e.overf1 e.overf
  | readCtrl1 => exact h.observe_readStored fun u => wordOfConfig u.ctrl1 false false false
  | readPeekraw0 => exact h.observe_readEngine fun _ e => e.peekraw0
  | readPeekraw1 => exact h.observe_readEngine fun _ e => e.peekraw1
  | writeAccum0 _ v => exact h.observe_writeUnit fun _ u => { u with accum0 := v }
  | writeAccum1 _ v => exact h.observe_writeUnit fun _ u => { u with accum1 := v }
  | writeBase0 _ v => exact h.observe_writeUnit fun _ u => { u with base0 := v }
  | writeBase1 _ v => exact h.observe_writeUnit fun _ u => { u with base1 := v }
  | writeBase2 _ v => exact h.observe_writeUnit fun _ u => { u with base2 := v }
  | writeCtrl0 _ w => exact h.observe_writeUnit fun _ u => { u with ctrl0 := configOfWord w }
  | writeCtrl1 _ w => exact h.observe_writeUnit fun _ u => { u with ctrl1 := configOfWord w }
  | writeAdd0 _ v => exact h.observe_writeUnit fun _ u => { u with accum0 := u.accum0 + v }
  | writeAdd1 _ v => exact h.observe_writeUnit fun _ u => { u with accum1 := u.accum1 + v }
  | writeBase01 _ v => exact h.observe_writeUnit fun cap => packedBases cap v

/-- Outcomes that look the same are two completions with the same unit and data, or the same refusal; there is no fault
(60_exceptions.md R170). -/
theorem next_or_refused_of_observe_eq {n : UnitId} {o o' : Host.Outcome State Fault Refusal}
    (h : observe n o = observe n o') :
    (∃ t t', o = .next t ∧ o' = .next t' ∧ t.unit n = t'.unit n ∧ t.rdata = t'.rdata) ∨
    ∃ r, o = .refused r ∧ o' = .refused r := by
  rcases o with t | f | r
  · rcases o' with t' | f | r'
    · obtain ⟨hu, hd⟩ : t.unit n = t'.unit n ∧ t.rdata = t'.rdata := by simpa [observe] using h
      exact .inl ⟨t, t', rfl, rfl, hu, hd⟩
    · cases f
    · cases h
  · cases f
  · rcases o' with t' | f | r'
    · cases h
    · cases f
    · cases h
      exact .inr ⟨r, rfl, rfl⟩

/-- Settles O47: states that agree on the unit give outcomes that look the same to its caller. -/
theorem operationsDependOnTheirUnitOnly : Obligations.OperationsDependOnTheirUnitOnly := by
  intro i s s' hunit hgen hcap hdiv
  exact next_or_refused_of_observe_eq (observe_exec_congr i ⟨hunit, hgen, hcap, hdiv⟩)

/-! ### The parameters -/

/-- The unit that the parameters name is the blend-capable one, and it alone (00_scope.md R4). -/
theorem capOf_eq_blendCapable_iff (p : Params) (n : UnitId) :
    p.capOf n = .blendCapable ↔ n = p.blendUnit := by
  by_cases h : n = p.blendUnit <;> simp [Params.capOf, h]

/-- One of the two units is blend-capable and the other is not (00_scope.md R4). -/
theorem capOf_unit0_ne_capOf_unit1 (p : Params) : p.capOf .unit0 ≠ p.capOf .unit1 := by
  cases hb : p.blendUnit <;> simp [Params.capOf, hb]

/-- The frame of every operation: one that completes changes its own unit and the driven data and nothing else
(20_memory.md R34, R41). -/
theorem exec_unitBecomes {i : Instr} {s t : State} (h : exec i s = .next t) :
    UnitBecomes i.unitOf (t.unit i.unitOf) t.rdata s t := by
  obtain ⟨f, hf, -⟩ | ⟨f, hf, -⟩ | ⟨f, hf, -⟩ | ⟨f, hf, -⟩ := exec_cases i s <;> rw [hf] at h
  · obtain ⟨-, hother, hparams, hpending, -⟩ := writeUnit_inv h
    exact ⟨rfl, hother, hparams, hpending, rfl⟩
  · rw [readStored_inv h]
    simp [UnitBecomes]
  · obtain ⟨-, e, -, rfl⟩ := readEngine_inv h
    simp [UnitBecomes]
  · obtain ⟨-, e, -, rfl⟩ := popEngine_inv h
    simp [UnitBecomes]

/-- No step changes the parameters (00_scope.md R2, R3; log 17). -/
theorem step_params {s t : State} (h : step s = .next t) : t.params = s.params := by
  obtain ⟨-, hstep⟩ | ⟨p, rest, i, -, -, hstep⟩ | ⟨p, rest, -, -, hstep⟩ := step_cases s <;> rw [hstep] at h
  · cases h
    rfl
  · obtain ⟨-, -, hparams, -⟩ := exec_unitBecomes h
    exact hparams
  · cases h

/-- Settles O51: the invariant is the step lemma `step_params`. -/
theorem oneUnitBlendsAndParametersNeverChange : Obligations.OneUnitBlendsAndParametersNeverChange := by
  intro p
  refine ⟨capOf_unit0_ne_capOf_unit1 p, capOf_eq_blendCapable_iff p, ?_⟩
  rintro s t rfl h
  exact step_params h

end Sys2Proof.Machine

/-! The statements that rest on spec/20_memory.md: an operation touches its unit only (R34), a read without side effect
repeats (R38) and a step is one operation of the caller's (R40, R41). -/

namespace Sys2Proof.Machine

/-! ### The frame of an operation -/

/-- Settles O43: it is part of the frame that every operation keeps. -/
theorem operationsTouchTheirUnitOnly : Obligations.OperationsTouchTheirUnitOnly := by
  intro i s t h
  obtain ⟨-, hother, hparams, hpending, -⟩ := exec_unitBecomes h
  exact ⟨hother, hparams, hpending⟩

/-! ### Reads without side effect -/

/-- A read that is no pop leaves the state as it was but for the driven data (43_read_ops.md R129). -/
theorem exec_eq_drive_of_read {i : Instr} {s t : State} (hwrite : i.isWrite = false) (hpop : i.isPop = false)
    (h : exec i s = .next t) : ∃ v, t = s.drive v := by
  obtain ⟨_, -, hw, -⟩ | ⟨_, hf, -⟩ | ⟨_, hf, -⟩ | ⟨_, -, -, -, hp⟩ := exec_cases i s
  · exact absurd hw (by simp [hwrite])
  · rw [hf] at h
    exact ⟨_, readStored_inv h⟩
  · rw [hf] at h
    obtain ⟨-, e, -, ht⟩ := readEngine_inv h
    exact ⟨_, ht⟩
  · exact absurd hp (by simp [hpop])

/-- The driven data is nothing that an operation sees (00_scope.md R8). -/
theorem AgreeOn.drive (n : UnitId) (s : State) (v : Word) : AgreeOn n s (s.drive v) :=
  ⟨(State.drive_unit s n v).symm, rfl, rfl, rfl⟩

/-- Driving the same data again changes nothing. -/
@[simp] theorem State.drive_drive_self (s : State) (v : Word) : (s.drive v).drive v = s.drive v := rfl

/-- Settles O45: the first read changes the driven data only, which the second does not see, so the second completes
with the same value and drives it into the state that holds it already. -/
theorem readsWithoutSideEffectRepeat : Obligations.ReadsWithoutSideEffectRepeat := by
  intro i s t hwrite hpop h
  obtain ⟨v, rfl⟩ := exec_eq_drive_of_read hwrite hpop h
  have hsame := observe_exec_congr i (AgreeOn.drive i.unitOf s v)
  obtain ⟨t₁, t₂, h₁, h₂, -, hdata⟩ | ⟨r, hr, -⟩ := next_or_refused_of_observe_eq hsame
  · obtain rfl : s.drive v = t₁ := by simpa [h] using h₁
    obtain ⟨v', rfl⟩ := exec_eq_drive_of_read hwrite hpop h₂
    obtain rfl : v = v' := by simpa using hdata
    rw [h₂, State.drive_drive_self]
  · rw [hr] at h
    cases h

/-! ### A step and its operation -/

/-- A step with an operation presented performs it, with the presentation made (20_memory.md R40, R41; log 18). -/
theorem step_of_decode {s : State} {p : Presentation} {rest : List Presentation} {i : Instr}
    (hpending : s.pending = p :: rest) (hdecode : decode p = .ok i) :
    step s = exec i { s with pending := rest } := by
  simp [step, nextPresentation_of_cons hpending, hdecode]

/-- Settles O49: every decoded operation is well formed, so `step_of_decode` needs no more. -/
theorem stepPerformsTheDecodedOperation : Obligations.StepPerformsTheDecodedOperation :=
  fun _ _ _ _ hpending hdecode _ => step_of_decode hpending hdecode

end Sys2Proof.Machine

/-! The statements that rest on spec/30_encoding.md: the reserved selects (R57), what a control word keeps of its bits
(R58) and the spelling of a literal (R62, R63). -/

namespace Sys2Proof

/-- The seven reserved selects by value (30_encoding.md R57; log 3). -/
theorem selReserved_iff :
    ∀ sel : BitVec 5, selReserved sel = true ↔ sel.toNat = 0x0F ∨ 0x15 ≤ sel.toNat ∧ sel.toNat ≤ 0x1A := by
  decide

/-- A reserved select stands for no operation (30_encoding.md R57; log 3). -/
theorem decode_of_not_wf {p : Presentation} (h : p.wf = false) : decode p = .error (.reservedSelect p.sel) := by
  have hsel : p.sel.toNat = 0x0F ∨ 0x15 ≤ p.sel.toNat ∧ p.sel.toNat ≤ 0x1A :=
    (selReserved_iff p.sel).mp (by simpa [Presentation.wf] using h)
  unfold decode
  dsimp only
  split
  case h_26 => rfl
  all_goals omega

end Sys2Proof

namespace Sys2Proof.Machine

/-! ### The steps that perform no operation -/

/-- A step with a reserved select presented is refused by the select's name (30_encoding.md R57; log 3). -/
theorem step_of_not_wf {s : State} {p : Presentation} {rest : List Presentation}
    (hpending : s.pending = p :: rest) (hwf : p.wf = false) :
    step s = .refused (.reservedSelect p.sel) := by
  simp [step, nextPresentation_of_cons hpending, decode_of_not_wf hwf]

/-- A step with nothing presented changes nothing (10_state.md R11; log 18). -/
theorem step_of_nil {s : State} (hpending : s.pending = []) : step s = .next s := by
  simp [step, nextPresentation_of_nil hpending]

/-- Settles O50: the decoder rejects every presentation that is not well formed, and an idle step has nothing to
decode. -/
theorem stepsWithoutAnOperation : Obligations.StepsWithoutAnOperation :=
  fun _ => ⟨fun _ _ => step_of_not_wf, step_of_nil⟩

/-! ### Control words -/

/-- The mask of the read/write fields has bits 22:0 set (30_encoding.md R58). -/
theorem getLsbD_configMask (j : Nat) : (0x007FFFFF#32).getLsbD j = decide (j < 23) := by
  have h := testBit_window 0 22 j (by decide)
  simpa [BitVec.getLsbD, Nat.lt_succ_iff] using h

/-- The mask of the reserved field has bits 31:26 set (30_encoding.md R58). -/
theorem getLsbD_reservedMask (j : Nat) :
    (0xFC000000#32).getLsbD j = (decide (26 ≤ j) && decide (j ≤ 31)) :=
  testBit_window 26 31 j (by decide)

/-- Bits 31:23 of a written control word are not stored (10_state.md R15, R16). -/
theorem configOfWord_and_configMask (w : Word) : configOfWord (w &&& 0x007FFFFF#32) = configOfWord w := by
  have hbit : ∀ j < 23, (w &&& 0x007FFFFF#32).getLsbD j = w.getLsbD j := fun j hj => by
    rw [BitVec.getLsbD_and, getLsbD_configMask, decide_eq_true hj, Bool.and_true]
  have hfield : ∀ a k, a + k ≤ 23 → (w &&& 0x007FFFFF#32).extractLsb' a k = w.extractLsb' a k := fun a k hk => by
    refine BitVec.eq_of_getLsbD_eq fun j hj => ?_
    rw [BitVec.getLsbD_extractLsb', BitVec.getLsbD_extractLsb', hbit _ (by omega)]
  exact CtrlConfig.ext_fields (hfield 0 5 (by decide)) (hfield 5 5 (by decide)) (hfield 10 5 (by decide))
    (hbit 15 (by decide)) (hbit 16 (by decide)) (hbit 17 (by decide)) (hbit 18 (by decide))
    (hfield 19 2 (by decide)) (hbit 21 (by decide)) (hbit 22 (by decide))

/-- Two words that agree in bits 22:0 are stored as the same record. -/
theorem configOfWord_congr {w w' : Word} (h : w' &&& 0x007FFFFF#32 = w &&& 0x007FFFFF#32) :
    configOfWord w' = configOfWord w := by
  rw [← configOfWord_and_configMask w', h, configOfWord_and_configMask]

/-- A field of a word put back where it was taken from. -/
theorem getLsbD_placeField_extractLsb' (w : Word) (a k j : Nat) :
    (placeField (w.extractLsb' a k) a).getLsbD j = (decide (a ≤ j ∧ j < a + k) && w.getLsbD j) := by
  rw [getLsbD_placeField, BitVec.getLsbD_extractLsb']
  by_cases hj : a ≤ j
  · rw [Nat.add_sub_cancel' hj]
    have hrange : w.getLsbD j = true → j < 32 := BitVec.lt_of_getLsbD
    grind
  · simp [hj]

/-- A flag placed at bit `a` of a control word. -/
theorem getLsbD_placeField_ofBool (b : Bool) {a : Nat} (ha : a < 32) (j : Nat) :
    (placeField (BitVec.ofBool b) a).getLsbD j = (decide (j = a) && b) := by
  rw [getLsbD_placeField, getLsbD_ofBool]
  grind

/-- A bit of a word put back where it was taken from. -/
theorem getLsbD_placeField_getLsbD (w : Word) {a : Nat} (ha : a < 32) (j : Nat) :
    (placeField (BitVec.ofBool (w.getLsbD a)) a).getLsbD j = (decide (j = a) && w.getLsbD j) := by
  rw [getLsbD_placeField_ofBool _ ha]
  by_cases hj : j = a <;> simp [hj]

/-- Bit by bit, what a control read shows of the word that was written: its bits 22:0, the flags, zeros
(30_encoding.md R58; decision D1, log 1). -/
theorem getLsbD_wordOfConfig_configOfWord (w : Word) (o₀ o₁ o : Bool) (j : Nat) :
    (wordOfConfig (configOfWord w) o₀ o₁ o).getLsbD j =
      if j < 23 then w.getLsbD j else
        (decide (j = 23) && o₀) || (decide (j = 24) && o₁) || (decide (j = 25) && o) := by
  simp only [wordOfConfig, encodeCtrl, BitVec.getLsbD_or, configOfWord_shift, configOfWord_maskLsb,
    configOfWord_maskMsb, configOfWord_isSigned, configOfWord_crossInput, configOfWord_crossResult,
    configOfWord_addRaw, configOfWord_forceMsb, configOfWord_blend, configOfWord_clamp,
    getLsbD_placeField_extractLsb', getLsbD_placeField_getLsbD, Nat.reduceLT]
  simp only [getLsbD_placeField_ofBool, Nat.reduceLT]
  split
  case isTrue hj =>
    have hflags : j ≠ 23 ∧ j ≠ 24 ∧ j ≠ 25 := by omega
    cases w.getLsbD j <;> simp [hflags]
    omega
  case isFalse hj =>
    cases w.getLsbD j <;> simp
    grind

/-- `READ_CTRL1` shows bits 22:0 of the word written, and zeros (43_read_ops.md R136). -/
theorem wordOfConfig_configOfWord_clear (w : Word) :
    wordOfConfig (configOfWord w) false false false = w &&& 0x007FFFFF#32 := by
  refine BitVec.eq_of_getLsbD_eq fun j _ => ?_
  rw [getLsbD_wordOfConfig_configOfWord, BitVec.getLsbD_and, getLsbD_configMask]
  by_cases hj : j < 23 <;> simp [hj]

/-- Whatever the flags, a control read agrees in bits 22:0 with the word written. -/
theorem wordOfConfig_configOfWord_and_configMask (w : Word) (o₀ o₁ o : Bool) :
    wordOfConfig (configOfWord w) o₀ o₁ o &&& 0x007FFFFF#32 = w &&& 0x007FFFFF#32 := by
  refine BitVec.eq_of_getLsbD_eq fun j _ => ?_
  rw [BitVec.getLsbD_and, BitVec.getLsbD_and, getLsbD_wordOfConfig_configOfWord, getLsbD_configMask]
  by_cases hj : j < 23 <;> simp [hj]

/-- A control read shows the flags in bits 23, 24 and 25, whatever the word written holds there. -/
theorem wordOfConfig_configOfWord_flags (w : Word) (o₀ o₁ o : Bool) :
    (wordOfConfig (configOfWord w) o₀ o₁ o).getLsbD 23 = o₀ ∧
    (wordOfConfig (configOfWord w) o₀ o₁ o).getLsbD 24 = o₁ ∧
    (wordOfConfig (configOfWord w) o₀ o₁ o).getLsbD 25 = o := by
  simp only [getLsbD_wordOfConfig_configOfWord]
  simp

/-- A control read shows 0 in the reserved bits 31:26 (30_encoding.md R58). -/
theorem wordOfConfig_configOfWord_and_reservedMask (w : Word) (o₀ o₁ o : Bool) :
    wordOfConfig (configOfWord w) o₀ o₁ o &&& 0xFC000000#32 = 0#32 := by
  refine BitVec.eq_of_getLsbD_eq fun j _ => ?_
  rw [BitVec.getLsbD_and, getLsbD_wordOfConfig_configOfWord, getLsbD_reservedMask, BitVec.getLsbD_zero]
  by_cases hj : 26 ≤ j
  · have hlow : ¬ j < 23 ∧ j ≠ 23 ∧ j ≠ 24 ∧ j ≠ 25 := by omega
    simp [hlow]
  · simp [hj]

/-- After `WRITE_CTRL0` the unit holds the stored fields of the word (42_write_ops.md R115). -/
theorem ctrl0_of_exec_writeCtrl0 {n : UnitId} {w : Word} {s t : State}
    (h : exec (.writeCtrl0 n w) s = .next t) : (t.unit n).ctrl0 = configOfWord w := by
  obtain ⟨hunit, -⟩ := writeUnit_inv (f := fun u => { u with ctrl0 := configOfWord w }) h
  rw [hunit]

/-- After `WRITE_CTRL1` the unit holds the stored fields of the word (42_write_ops.md R116). -/
theorem ctrl1_of_exec_writeCtrl1 {n : UnitId} {w : Word} {s t : State}
    (h : exec (.writeCtrl1 n w) s = .next t) : (t.unit n).ctrl1 = configOfWord w := by
  obtain ⟨hunit, -⟩ := writeUnit_inv (f := fun u => { u with ctrl1 := configOfWord w }) h
  rw [hunit]

/-- `READ_CTRL1` answers the stored record with clear flags (43_read_ops.md R136). -/
theorem exec_readCtrl1 (n : UnitId) (s : State) :
    exec (.readCtrl1 n) s = .next (s.drive (wordOfConfig (s.unit n).ctrl1 false false false)) := rfl

/-- `READ_CTRL0` answers the stored record with the engine's present flags (43_read_ops.md R135). -/
theorem exec_readCtrl0_of_engineOf {n : UnitId} {s : State} {e : EngineResult} (h : s.engineOf n = some e) :
    exec (.readCtrl0 n) s =
      .next (s.drive (wordOfConfig (s.unit n).ctrl0 e.overf0 e.overf1 e.overf)) := by
  simp [exec, execReadCtrl0, readEngine, h]

/-- Settles O48: a control write stores the record of the word's bits 22:0, and a control read spells the stored record
out again, bit by bit. -/
theorem controlWritesReadBack : Obligations.ControlWritesReadBack := by
  intro n w s t
  refine ⟨fun w' hw => ?_, fun hwrite => ?_, fun hwrite hwindows => ?_⟩
  · simp only [exec, execWriteCtrl0, execWriteCtrl1, configOfWord_congr hw, and_self]
  · rw [exec_readCtrl1, ctrl1_of_exec_writeCtrl1 hwrite, wordOfConfig_configOfWord_clear]
    rfl
  · have hengine := engineOf_of_inOrder hwindows
    refine ⟨_, _, hengine, exec_readCtrl0_of_engineOf hengine, ?_⟩
    rw [ctrl0_of_exec_writeCtrl0 hwrite]
    obtain ⟨hoverf0, hoverf1, hoverf⟩ := wordOfConfig_configOfWord_flags w _ _ _
    exact ⟨wordOfConfig_configOfWord_and_configMask w _ _ _, hoverf0, hoverf1, hoverf,
      wordOfConfig_configOfWord_and_reservedMask w _ _ _⟩

/-! ### The spelling of a literal -/

/-- The value of hexadecimal digits, the most significant first, after the value `acc` (30_encoding.md R62). -/
def hexValue (acc : Nat) (ks : List Nat) : Nat :=
  ks.foldl (fun a k => a * 16 + k) acc

/-- A hexadecimal digit is read as the number it was written for. -/
theorem digitValue_hexDigit : ∀ k < 16, digitValue 16 (hexDigit k) = some k := by
  decide

/-- Written digits are read as their value. -/
theorem digitsValue_map_hexDigit {ks : List Nat} (hks : ∀ k ∈ ks, k < 16) (acc : Nat) :
    digitsValue 16 acc (ks.map hexDigit) = some (hexValue acc ks) := by
  induction ks generalizing acc with
  | nil => rfl
  | cons k ks ih =>
    have hk : digitValue 16 (hexDigit k) = some k := digitValue_hexDigit k (hks k (by simp))
    simp only [List.map_cons, digitsValue, hk]
    exact ih (fun k' hk' => hks k' (by simp [hk'])) _

/-- Leading zeros do not count. -/
theorem hexValue_dropWhile_zero_append (ks ls : List Nat) :
    hexValue 0 (ks.dropWhile (· == 0) ++ ls) = hexValue 0 (ks ++ ls) := by
  induction ks with
  | nil => rfl
  | cons k ks ih =>
    by_cases hk : k = 0
    · subst hk
      simpa [hexValue] using ih
    · simp [hk]

/-- The digits of a word before its leading zeros are dropped, but for the last. -/
def upperDigits (v : Word) : List Nat :=
  [28, 24, 20, 16, 12, 8, 4].map fun at_ => v.toNat / 2 ^ at_ % 16

/-- The spelled digits are those of the word without its leading zeros. -/
theorem hexDigits_eq (v : Word) :
    hexDigits v = ((upperDigits v).dropWhile (· == 0) ++ [v.toNat % 16]).map hexDigit := rfl

/-- Eight hexadecimal digits make up the word. -/
theorem hexValue_upperDigits_append (v : Word) : hexValue 0 (upperDigits v ++ [v.toNat % 16]) = v.toNat := by
  have hv : v.toNat < 2 ^ 32 := v.isLt
  simp [hexValue, upperDigits]
  omega

/-- The spelled digits are read as the word's value. -/
theorem digitsValue_hexDigits (v : Word) : digitsValue 16 0 (hexDigits v) = some v.toNat := by
  have hdigit : ∀ k ∈ (upperDigits v).dropWhile (· == 0) ++ [v.toNat % 16], k < 16 := by
    intro k hk
    obtain hk | hk := List.mem_append.mp hk
    · obtain ⟨_, -, rfl⟩ := List.mem_map.mp ((List.dropWhile_sublist _).mem hk)
      exact Nat.mod_lt _ (by decide)
    · rw [List.mem_singleton.mp hk]
      exact Nat.mod_lt _ (by decide)
  rw [hexDigits_eq, digitsValue_map_hexDigit hdigit, hexValue_dropWhile_zero_append, hexValue_upperDigits_append]

/-- There is at least one digit, so that the literal is not rejected (30_encoding.md R62). -/
theorem hexDigits_ne_nil (v : Word) : hexDigits v ≠ [] := by
  simp [hexDigits_eq]

/-- A hexadecimal literal with a digit is the value of its digits (30_encoding.md R62). -/
theorem parseLiteral_hex {ds : List Char} {k : Nat} (hds : ds ≠ []) (hvalue : digitsValue 16 0 ds = some k)
    (hk : k < 2 ^ 32) : parseLiteral ('0' :: 'x' :: ds) = some (BitVec.ofNat 32 k) := by
  obtain ⟨d, ds, rfl⟩ := List.exists_cons_of_ne_nil hds
  simp only [parseLiteral, hvalue, if_pos hk]

/-- Settles O60: the digits of the spelling have the word's value, which is in range. -/
theorem spelledWordsReadBack : Obligations.SpelledWordsReadBack := by
  intro v
  rw [spellWord, parseLiteral_hex (hexDigits_ne_nil v) (digitsValue_hexDigits v) v.isLt, BitVec.ofNat_toNat,
    BitVec.setWidth_eq]

end Sys2Proof.Machine

/-! The statements that rest on spec/40_codec.md: the codec's two laws (R72), and the decoded fields and the encoded
word as numbers (R70, R71). -/

namespace Sys2Proof.Machine

/-! ### The two laws -/

/-- The mask of the encoded fields has bits 25:0 set (40_codec.md R72). -/
theorem getLsbD_encodedMask (j : Nat) : (0x03FFFFFF#32).getLsbD j = decide (j < 26) := by
  have h := testBit_window 0 25 j (by decide)
  simpa [BitVec.getLsbD, Nat.lt_succ_iff] using h

/-- Encoding a decoded word is a control read that shows the word's own status bits (40_codec.md R74). -/
theorem encodeCtrl_decodeCtrl_eq_wordOfConfig (w : Word) :
    encodeCtrl (decodeCtrl w) = wordOfConfig (configOfWord w) (w.getLsbD 23) (w.getLsbD 24) (w.getLsbD 25) := rfl

/-- Every bit below the reserved field goes back to where it was taken from (40_codec.md R72). -/
theorem encodeCtrl_decodeCtrl (w : Word) : encodeCtrl (decodeCtrl w) = w &&& 0x03FFFFFF#32 := by
  refine BitVec.eq_of_getLsbD_eq fun j _ => ?_
  rw [encodeCtrl_decodeCtrl_eq_wordOfConfig, getLsbD_wordOfConfig_configOfWord, BitVec.getLsbD_and,
    getLsbD_encodedMask]
  by_cases hconfig : j < 23
  · have hkept : j < 26 := by omega
    simp [hconfig, hkept]
  by_cases hstatus : j < 26
  · obtain rfl | rfl | rfl : j = 23 ∨ j = 24 ∨ j = 25 := by omega
    all_goals simp
  · have hreserved : j ≠ 23 ∧ j ≠ 24 ∧ j ≠ 25 := by omega
    simp [hconfig, hstatus, hreserved]

/-- A field is read back where it was placed. -/
theorem extractLsb'_placeField_same {k : Nat} (f : BitVec k) {p : Nat} (hk : p + k ≤ 32) :
    (placeField f p).extractLsb' p k = f := by
  refine BitVec.eq_of_getLsbD_eq fun j hj => ?_
  have hword : p + j < 32 := by omega
  simp [hj, hword]

/-- A placed field shows nothing in a bit outside it. -/
theorem getLsbD_placeField_of_disjoint {k : Nat} (f : BitVec k) {p j : Nat} (h : p + k ≤ j ∨ j < p) :
    (placeField f p).getLsbD j = false := by
  rw [getLsbD_placeField]
  obtain habove | hbelow := h
  · simp [BitVec.getLsbD_of_ge f (j - p) (by omega)]
  · simp [hbelow]

/-- A placed field shows nothing in the bits of another. -/
theorem extractLsb'_placeField_of_disjoint {k : Nat} (f : BitVec k) {p a m : Nat} (h : p + k ≤ a ∨ a + m ≤ p) :
    (placeField f p).extractLsb' a m = 0#m := by
  refine BitVec.eq_of_getLsbD_eq fun j hj => ?_
  rw [BitVec.getLsbD_extractLsb', getLsbD_placeField_of_disjoint f (by omega), Bool.and_false, BitVec.getLsbD_zero]

/-- Every field but the reserved one is read back where it was placed, and no other field shows there
(40_codec.md R72). -/
theorem decodeCtrl_encodeCtrl (r : ControlRecord) : decodeCtrl (encodeCtrl r) = { r with reserved := 0#6 } := by
  simp (disch := decide) only [decodeCtrl, encodeCtrl, BitVec.extractLsb'_or, BitVec.getLsbD_or,
    extractLsb'_placeField_same, extractLsb'_placeField_of_disjoint, getLsbD_placeField_ofBool,
    getLsbD_placeField_of_disjoint, BitVec.or_zero, BitVec.zero_or, Bool.or_false, Bool.false_or,
    decide_true, Bool.true_and]

/-- Settles O4: the codec takes every bit below the reserved field from its place and puts it back there. -/
theorem ctrlCodecRoundTrip : Obligations.CtrlCodecRoundTrip :=
  ⟨encodeCtrl_decodeCtrl, decodeCtrl_encodeCtrl⟩

/-! ### Fields as numbers -/

/-- `k` bits of a word from bit `a` on spell the word's digit there (40_codec.md R70). -/
theorem toNat_extractLsb'_eq_div_mod (w : Word) (a k : Nat) :
    (w.extractLsb' a k).toNat = w.toNat / 2 ^ a % 2 ^ k := by
  rw [BitVec.extractLsb'_toNat, Nat.shiftRight_eq_div_pow]

/-- One bit of a word is its binary digit (40_codec.md R70). -/
theorem toNat_getLsbD_eq_div_mod (w : Word) (a : Nat) : (w.getLsbD a).toNat = w.toNat / 2 ^ a % 2 :=
  Nat.toNat_testBit w.toNat a

/-- The lowest field needs no division (40_codec.md R70). -/
theorem toNat_decodeCtrl_shift (w : Word) : (decodeCtrl w).shift.toNat = w.toNat % 2 ^ 5 := by
  have hshift : (decodeCtrl w).shift.toNat = w.toNat / 2 ^ 0 % 2 ^ 5 := toNat_extractLsb'_eq_div_mod w 0 5
  rw [hshift, Nat.pow_zero, Nat.div_one]

/-- The reserved field needs no remainder: a word has no bits above it (40_codec.md R70; decision D1, log 1). -/
theorem toNat_decodeCtrl_reserved (w : Word) : (decodeCtrl w).reserved.toNat = w.toNat / 2 ^ 26 := by
  have hw : w.toNat < 2 ^ 32 := w.isLt
  have hreserved : (decodeCtrl w).reserved.toNat = w.toNat / 2 ^ 26 % 2 ^ 6 :=
    toNat_extractLsb'_eq_div_mod w 26 6
  omega

/-- The word `a` holds the number `v` in its lowest `p` bits and nothing above them. -/
structure PacksTo (a : Word) (p v : Nat) : Prop where
  toNat_eq : a.toNat = v
  lt_two_pow : v < 2 ^ p

/-- The lowest field of a word. -/
theorem packsTo_placeField_zero {k : Nat} (f : BitVec k) (hk : k ≤ 32) : PacksTo (placeField f 0) k f.toNat := by
  refine ⟨?_, f.isLt⟩
  rw [placeField, BitVec.shiftLeft_zero, BitVec.toNat_setWidth_of_le hk]

/-- A field placed above all that a word holds adds its number there: no two bits meet (40_codec.md R71). -/
theorem PacksTo.or_placeField {a : Word} {p v k : Nat} (h : PacksTo a p v) (f : BitVec k) (hk : p + k ≤ 32) :
    PacksTo (a ||| placeField f p) (p + k) (v + f.toNat * 2 ^ p) := by
  obtain ⟨rfl, hlow⟩ := h
  have hbound : a.toNat + f.toNat * 2 ^ p < 2 ^ (p + k) := calc
    a.toNat + f.toNat * 2 ^ p < (f.toNat + 1) * 2 ^ p := by
      rw [Nat.succ_mul]
      omega
    _ ≤ 2 ^ k * 2 ^ p := Nat.mul_le_mul_right _ f.isLt
    _ = 2 ^ (p + k) := by rw [← Nat.pow_add, Nat.add_comm]
  have hword : 2 ^ (p + k) ≤ 2 ^ 32 := Nat.pow_le_pow_right (by decide) hk
  have hplaced : (placeField f p).toNat = f.toNat <<< p := by
    rw [placeField, BitVec.toNat_shiftLeft, BitVec.toNat_setWidth_of_le (by omega), Nat.shiftLeft_eq]
    exact Nat.mod_eq_of_lt (by omega)
  refine ⟨?_, hbound⟩
  rw [BitVec.toNat_or, hplaced, Nat.or_comm, ← Nat.shiftLeft_add_eq_or_of_lt hlow, Nat.shiftLeft_eq, Nat.add_comm]

/-- A flag placed above all that a word holds (40_codec.md R71). -/
theorem PacksTo.or_flag {a : Word} {p v : Nat} (h : PacksTo a p v) (b : Bool) (hp : p < 32) :
    PacksTo (a ||| placeField (BitVec.ofBool b) p) (p + 1) (v + b.toNat * 2 ^ p) := by
  simpa only [BitVec.toNat_ofBool] using h.or_placeField (BitVec.ofBool b) hp

/-- The thirteen encoded fields stand side by side, from `shift` in bit 0 to `overf` in bit 25 (40_codec.md R71;
decision D1, log 1). -/
theorem packsTo_encodeCtrl (r : ControlRecord) :
    PacksTo (encodeCtrl r) 26
      (r.shift.toNat + r.maskLsb.toNat * 2 ^ 5 + r.maskMsb.toNat * 2 ^ 10 + r.isSigned.toNat * 2 ^ 15
        + r.crossInput.toNat * 2 ^ 16 + r.crossResult.toNat * 2 ^ 17 + r.addRaw.toNat * 2 ^ 18
        + r.forceMsb.toNat * 2 ^ 19 + r.blend.toNat * 2 ^ 21 + r.clamp.toNat * 2 ^ 22
        + r.overf0.toNat * 2 ^ 23 + r.overf1.toNat * 2 ^ 24 + r.overf.toNat * 2 ^ 25) :=
  packsTo_placeField_zero r.shift (by decide)
    |>.or_placeField r.maskLsb (by decide) |>.or_placeField r.maskMsb (by decide)
    |>.or_flag r.isSigned (by decide) |>.or_flag r.crossInput (by decide)
    |>.or_flag r.crossResult (by decide) |>.or_flag r.addRaw (by decide)
    |>.or_placeField r.forceMsb (by decide)
    |>.or_flag r.blend (by decide) |>.or_flag r.clamp (by decide)
    |>.or_flag r.overf0 (by decide) |>.or_flag r.overf1 (by decide) |>.or_flag r.overf (by decide)

/-- Settles O5: each decoded field is a digit of the word, and the encoded fields stand side by side. -/
theorem ctrlFieldsAreTheirArithmetic : Obligations.CtrlFieldsAreTheirArithmetic := by
  refine ⟨fun w => ⟨toNat_decodeCtrl_shift w, toNat_extractLsb'_eq_div_mod w 5 5, toNat_extractLsb'_eq_div_mod w 10 5,
    toNat_getLsbD_eq_div_mod w 15, toNat_getLsbD_eq_div_mod w 16, toNat_getLsbD_eq_div_mod w 17,
    toNat_getLsbD_eq_div_mod w 18, toNat_extractLsb'_eq_div_mod w 19 2, toNat_getLsbD_eq_div_mod w 21,
    toNat_getLsbD_eq_div_mod w 22, toNat_getLsbD_eq_div_mod w 23, toNat_getLsbD_eq_div_mod w 24,
    toNat_getLsbD_eq_div_mod w 25, toNat_decodeCtrl_reserved w⟩, fun r => (packsTo_encodeCtrl r).toNat_eq⟩

end Sys2Proof.Machine

/-! The statements that rest on spec/41_engine.md: the rotate (R102), the stages of a lane (R82 to R90), the full result
(R91), clamp (R92, R93), blend (R94, R95), the presentations (R96 to R98) and the result as a whole (R81, R85, R100). -/

namespace Sys2Proof.Machine

/-! ### The primitives -/

/-- A rotate right moves the lowest `n` bits above the others (00_scope.md section 5.1). -/
theorem toNat_ror32 (x : Word) (n : BitVec 5) :
    (ror32 x n).toNat = x.toNat / 2 ^ n.toNat + x.toNat % 2 ^ n.toNat * 2 ^ (32 - n.toNat) := by
  have hn : n.toNat < 32 := n.isLt
  have hpow : 2 ^ 32 = 2 ^ n.toNat * 2 ^ (32 - n.toNat) := by
    rw [← Nat.pow_add, Nat.add_sub_cancel' hn.le]
  have hhigh : x.toNat / 2 ^ n.toNat < 2 ^ (32 - n.toNat) := Nat.div_lt_of_lt_mul (hpow ▸ x.isLt)
  have hlow : x.toNat <<< (32 - n.toNat) % 2 ^ 32 = (x.toNat % 2 ^ n.toNat) <<< (32 - n.toNat) := by
    rw [hpow, Nat.shiftLeft_eq, Nat.shiftLeft_eq, Nat.mul_mod_mul_right]
  rw [ror32, BitVec.toNat_rotateRight, Nat.mod_eq_of_lt hn, hlow, Nat.shiftRight_eq_div_pow, Nat.or_comm,
    ← Nat.shiftLeft_add_eq_or_of_lt hhigh, Nat.shiftLeft_eq, Nat.add_comm]

/-- Rotating left by 1 is defined as rotating right by 31 (00_scope.md section 5.1, 41_engine.md R102). -/
theorem rol32_one (x : Word) : rol32 x 1#5 = ror32 x 31#5 := rfl

/-- Rotating left by 1 doubles the word and brings its top bit round (41_engine.md R102). -/
theorem toNat_rol32_one (x : Word) : (rol32 x 1#5).toNat = x.toNat * 2 % 2 ^ 32 + x.toNat / 2 ^ 31 := by
  have hror : (ror32 x 31#5).toNat = x.toNat / 2 ^ 31 + x.toNat % 2 ^ 31 * 2 ^ 1 := toNat_ror32 x 31#5
  rw [rol32_one]
  omega

/-- Settles O7: rotating left by 1 is by definition the rotate by 31, whose value is `toNat_ror32`. -/
theorem rotateIdentities : Obligations.RotateIdentities :=
  fun x => ⟨ror32_zero x, (rol32_one x).symm, toNat_rol32_one x⟩

/-- The bits of a window whose bounds are in order (00_scope.md section 5.1). -/
theorem getLsbD_window {l m : BitVec 5} (h : l.toNat ≤ m.toNat) (k : Nat) :
    (window l m).getLsbD k = (decide (l.toNat ≤ k) && decide (k ≤ m.toNat)) := by
  have hm : m.toNat < 32 := m.isLt
  have hk : k ≤ m.toNat → k < 32 := fun hk => by omega
  rw [window, BitVec.getLsbD_ofNat, testBit_window _ _ _ h]
  grind

/-- The bits above a window: none for `m = 31` (00_scope.md section 5.1). -/
theorem getLsbD_above (m : BitVec 5) (k : Nat) :
    (above m).getLsbD k = (decide (m.toNat < k) && decide (k < 32)) := by
  rw [above, BitVec.getLsbD_ofNat, Bool.and_comm]
  obtain hm | hm : m.toNat + 1 ≤ 31 ∨ m.toNat = 31 := by omega
  · rw [testBit_window (m.toNat + 1) 31 k hm]
    grind
  · have hnone : 2 ^ 32 - 2 ^ (31 + 1) = 0 := by decide
    rw [hm, hnone, Nat.zero_testBit]
    grind

/-! ### The input and the shift stage -/

/-- Settles O9: the stages' definitions by lane and generation, and `laneShifted_of_shift_zero`. -/
theorem shiftedIsTheSelectedInputShiftedOrRotated : Obligations.ShiftedIsTheSelectedInputShiftedOrRotated :=
  fun g _ => ⟨rfl, rfl, fun _ => ⟨rfl, rfl, laneShifted_of_shift_zero g⟩⟩

/-- Lane `i` of two units has the same input, shift and window: all that its flag and its masked value see of a unit
(41_engine.md R86, R87). -/
structure SameLane (i : Lane) (u' u : InterpUnit) : Prop where
  input : laneInput u' i = laneInput u i
  shift : (u'.ctrl i).shift = (u.ctrl i).shift
  maskLsb : (u'.ctrl i).maskLsb = (u.ctrl i).maskLsb
  maskMsb : (u'.ctrl i).maskMsb = (u.ctrl i).maskMsb

section SameLane

variable {i : Lane} {u' u : InterpUnit} (h : SameLane i u' u) (g : Gen)
include h

theorem SameLane.laneShifted_eq : laneShifted g u' i = laneShifted g u i := by
  rw [laneShifted, h.input, h.shift, laneShifted]

theorem SameLane.laneMasked_eq : laneMasked g u' i = laneMasked g u i := by
  rw [laneMasked, h.laneShifted_eq, h.maskLsb, h.maskMsb, laneMasked]

theorem SameLane.laneOverflow_eq : laneOverflow g u' i = laneOverflow g u i := by
  rw [laneOverflow, h.laneShifted_eq, h.maskMsb, laneOverflow]

/-- The signed result sees `is_signed` besides (41_engine.md R89). -/
theorem SameLane.laneSigned_eq (hsigned : (u'.ctrl i).isSigned = (u.ctrl i).isSigned) :
    laneSigned g u' i = laneSigned g u i := by
  rw [laneSigned, h.laneMasked_eq, h.maskMsb, hsigned, laneSigned]

end SameLane

/-! ### The mask stage -/

theorem windowInOrder_iff (c : CtrlConfig) : c.windowInOrder = true ↔ c.maskLsb.toNat ≤ c.maskMsb.toNat :=
  BitVec.ule_iff_toNat_le

/-- The masked value bit by bit: the shifted value's bits inside the window (41_engine.md R84). -/
theorem getLsbD_laneMasked (g : Gen) {u : InterpUnit} {i : Lane} (h : (u.ctrl i).windowInOrder = true) (k : Nat) :
    (laneMasked g u i).getLsbD k = ((laneShifted g u i).getLsbD k &&
      (decide ((u.ctrl i).maskLsb.toNat ≤ k) && decide (k ≤ (u.ctrl i).maskMsb.toNat))) := by
  rw [laneMasked, BitVec.getLsbD_and, getLsbD_window ((windowInOrder_iff _).mp h)]

/-- Outside its window the masked value has no bit (41_engine.md R84). -/
theorem getLsbD_laneMasked_of_outside (g : Gen) {u : InterpUnit} {i : Lane} (h : (u.ctrl i).windowInOrder = true)
    {k : Nat} (hk : k < (u.ctrl i).maskLsb.toNat ∨ (u.ctrl i).maskMsb.toNat < k) :
    (laneMasked g u i).getLsbD k = false := by
  rw [getLsbD_laneMasked g h]
  obtain hbelow | habove := hk
  · simp [Nat.not_le.mpr hbelow]
  · simp [Nat.not_le.mpr habove]

/-- Settles O10: the masked value's bits by `getLsbD_laneMasked`, and what it depends on by `SameLane`. -/
theorem maskedValueIsTheShiftedValueInItsWindow : Obligations.MaskedValueIsTheShiftedValueInItsWindow := by
  intro g u i h
  refine ⟨fun k hlsb hmsb => ?inside, ?complement, fun k hk => getLsbD_laneMasked_of_outside g h hk,
    fun u' hinput hshift hlsb hmsb => SameLane.laneMasked_eq ⟨hinput, hshift, hlsb, hmsb⟩ g⟩
  case inside => simp [getLsbD_laneMasked g h, hlsb, hmsb]
  case complement => simp [laneMasked, BitVec.and_assoc]

/-! ### The overflow flags -/

/-- A lane's flag is set by a bit of its shifted value above `mask_msb` (41_engine.md R87). -/
theorem laneOverflow_iff (g : Gen) (u : InterpUnit) (i : Lane) :
    laneOverflow g u i = true ↔
      ∃ k, (u.ctrl i).maskMsb.toNat < k ∧ k < 32 ∧ (laneShifted g u i).getLsbD k = true := by
  rw [laneOverflow, bne_iff_ne, Ne, BitVec.eq_of_getLsbD_eq_iff]
  simp only [BitVec.getLsbD_and, getLsbD_above, BitVec.getLsbD_zero]
  grind

/-- A window up to bit 31 leaves nothing above it (41_engine.md R87). -/
theorem laneOverflow_of_maskMsb_top (g : Gen) {u : InterpUnit} {i : Lane} (h : (u.ctrl i).maskMsb = 31#5) :
    laneOverflow g u i = false := by
  have hnone : above 31#5 = 0#32 := rfl
  simp [laneOverflow, h, hnone]

/-- The three flags of the result see the two lanes only (41_engine.md R87). -/
theorem engineResult_flags_eq {g : Gen} {cap cap' : Cap} {div div' : BlendDiv} {u' u : InterpUnit}
    (h : ∀ i, SameLane i u' u) :
    (engineResult g cap' div' u').overf0 = (engineResult g cap div u).overf0 ∧
    (engineResult g cap' div' u').overf1 = (engineResult g cap div u).overf1 ∧
    (engineResult g cap' div' u').overf = (engineResult g cap div u).overf := by
  have h0 := (h .lane0).laneOverflow_eq g
  have h1 := (h .lane1).laneOverflow_eq g
  exact ⟨h0, h1, congrArg₂ or h0 h1⟩

/-- If the engine has a result, both windows are in order and the result is the record of R100 (41_engine.md R85). -/
theorem engine_inv {g : Gen} {cap : Cap} {div : BlendDiv} {u : InterpUnit} {e : EngineResult}
    (h : engine g cap div u = some e) : u.windowsInOrder = true ∧ e = engineResult g cap div u := by
  unfold engine at h
  split at h
  case isTrue hwin => exact ⟨hwin, (Option.some.inj h).symm⟩
  case isFalse => cases h

theorem engine_of_windowsInOrder (g : Gen) (cap : Cap) (div : BlendDiv) {u : InterpUnit}
    (h : u.windowsInOrder = true) : engine g cap div u = some (engineResult g cap div u) :=
  if_pos h

/-- Settles O11: a flag by `laneOverflow_iff`; what it does not depend on, because the changed unit has the same
lanes. -/
theorem overflowFlagsSeeBitsAboveTheWindow : Obligations.OverflowFlagsSeeBitsAboveTheWindow := by
  intro g cap div u e h
  obtain ⟨hwin, rfl⟩ := engine_inv h
  refine ⟨rfl, rfl, laneOverflow_iff g u .lane0, laneOverflow_iff g u .lane1, rfl,
    laneOverflow_of_maskMsb_top (i := .lane0) g, laneOverflow_of_maskMsb_top (i := .lane1) g, ?_⟩
  intro cap' div' b0 b1 b2 s0 s1 r0 r1 c0 c1 d0 d1
  refine ⟨_, engine_of_windowsInOrder g cap' div' hwin, engineResult_flags_eq fun i => ?_⟩
  cases i <;> exact ⟨rfl, rfl, rfl, rfl⟩

/-! ### The sign extension -/

/-- Sign extension keeps the bits up to `m` and sets those above by bit `m` (41_engine.md R89). -/
theorem getLsbD_signExtendFrom (m : BitVec 5) (x : Word) {k : Nat} (hk : k < 32) :
    (signExtendFrom m x).getLsbD k =
      (x.getLsbD k || (decide (m.toNat < k) && x.getLsbD m.toNat)) := by
  unfold signExtendFrom
  split
  case isTrue hbit =>
    rw [BitVec.getLsbD_or, getLsbD_above]
    simp [hk, hbit]
  case isFalse hbit => simp [hbit]

/-- Settles O12: above `mask_msb` the masked value has no bit, so the copies of the sign bit stand alone there. -/
theorem signedResultCopiesTheBitAtMaskMsb : Obligations.SignedResultCopiesTheBitAtMaskMsb := by
  intro g u i k h hk
  have habove : (u.ctrl i).maskMsb.toNat < k → (laneMasked g u i).getLsbD k = false := fun hmsb =>
    getLsbD_laneMasked_of_outside g h (.inr hmsb)
  unfold laneSigned
  cases (u.ctrl i).isSigned
  case false => grind
  case true =>
    rw [if_pos rfl, getLsbD_signExtendFrom _ _ hk]
    grind

/-! ### The sums -/

/-- Settles O13: the machine's addition is the one modulo 2^32, and the signed results see neither a base nor
`add_raw`. -/
theorem laneAddWrapsAndAddRawIsLocal : Obligations.LaneAddWrapsAndAddRawIsLocal := by
  refine ⟨fun g u => ⟨BitVec.toNat_add _ _, BitVec.toNat_add _ _⟩, ?_⟩
  intro g cap u b0 b1 r0 r1 i u'
  have hlane : ∀ i, SameLane i u' u := fun i => by cases i <;> exact ⟨rfl, rfl, rfl, rfl⟩
  have hsigned : ∀ i, laneSigned g u' i = laneSigned g u i := fun i =>
    (hlane i).laneSigned_eq g (by cases i <;> rfl)
  have hblend : doBlend cap u' = doBlend cap u := rfl
  have hbase : u'.base2 = u.base2 := rfl
  exact ⟨by simp only [fullResult, hsigned, hblend, hbase], hsigned i, (hlane i).laneOverflow_eq g⟩

/-- Settles O14: two additions modulo 2^32, the second of 0 in blend mode. -/
theorem fullResultSumsTheSignedResults : Obligations.FullResultSumsTheSignedResults := by
  intro g cap u
  unfold fullResult
  split <;> simp

/-! ### Clamp -/

/-- The number that a word stands for in the comparison that `signed` selects (41_engine.md R92). -/
def wordValue (signed : Bool) (x : Word) : Int :=
  if signed then s32 x else x.toNat

@[simp] theorem wordValue_true (x : Word) : wordValue true x = s32 x := rfl
@[simp] theorem wordValue_false (x : Word) : wordValue false x = (x.toNat : Int) := rfl

theorem lessThan_iff (signed : Bool) (a b : Word) :
    lessThan signed a b = true ↔ wordValue signed a < wordValue signed b := by
  cases signed <;> simp [lessThan]

/-- Bounds in order limit the value between them, whichever is tested first (41_engine.md R92). -/
theorem wordValue_clampTo_of_ordered {signed : Bool} {lo hi : Word} (x : Word)
    (h : wordValue signed lo ≤ wordValue signed hi) :
    wordValue signed (clampTo signed lo hi x) =
      max (wordValue signed lo) (min (wordValue signed hi) (wordValue signed x)) := by
  simp only [clampTo, lessThan_iff]
  split_ifs <;> omega

/-- With crossed bounds a value that is not below the lower bound is above the upper one (41_engine.md R93; D7,
log 7). -/
theorem clampTo_of_crossed {signed : Bool} {lo hi : Word} (x : Word)
    (h : wordValue signed hi < wordValue signed lo) :
    clampTo signed lo hi x = if wordValue signed x < wordValue signed lo then lo else hi := by
  simp only [clampTo, lessThan_iff]
  split_ifs
  case neg => omega
  all_goals rfl

/-- Settles O15: one fact about bounds in order, read in each comparison. -/
theorem clampLimitsToOrderedBounds : Obligations.ClampLimitsToOrderedBounds := by
  intro g u
  constructor <;> intro hsigned hbounds <;> rw [clampValue, hsigned]
  · exact wordValue_clampTo_of_ordered (signed := true) _ hbounds
  · have h := wordValue_clampTo_of_ordered (signed := false) (laneSigned g u .lane0) (Int.ofNat_le.mpr hbounds)
    simp only [wordValue_false] at h
    exact_mod_cast h

/-- Settles O16: one fact about crossed bounds, read in each comparison. -/
theorem crossedClampBoundsTestTheLowerFirst : Obligations.CrossedClampBoundsTestTheLowerFirst := by
  intro g u
  constructor <;> intro hsigned hbounds <;> rw [clampValue, hsigned]
  · exact clampTo_of_crossed (signed := true) _ hbounds
  · simpa using clampTo_of_crossed (signed := false) (laneSigned g u .lane0) (Int.ofNat_lt.mpr hbounds)

/-! ### Blend -/

/-- Settles O18: the low byte of a word is its remainder by 256. -/
theorem alphaIsTheLowByteOfLane1 : Obligations.AlphaIsTheLowByteOfLane1 := by
  intro g u
  have hdigit := toNat_extractLsb'_eq_div_mod (laneSigned g u .lane1) 0 8
  rw [Nat.pow_zero, Nat.div_one] at hdigit
  exact ⟨hdigit, Nat.le_of_lt_succ (blendAlpha g u).isLt⟩

/-- The wrapping 64-bit product of the unsigned blend is the exact product modulo 2^64 (41_engine.md R95; D21,
log 11). -/
theorem blendProduct_eq_ofInt (b0 b1 : Word) (a : BitVec 8) :
    a.setWidth 64 * (b1.setWidth 64 - b0.setWidth 64) =
      BitVec.ofInt 64 ((a.toNat : Int) * ((b1.toNat : Int) - b0.toNat)) := by
  have hcast : ∀ {k : Nat} (v : BitVec k), v.setWidth 64 = BitVec.ofInt 64 v.toNat := fun v => by
    rw [BitVec.ofInt_natCast, BitVec.ofNat_toNat]
  have hdiff : b1.setWidth 64 - b0.setWidth 64 = BitVec.ofInt 64 ((b1.toNat : Int) - b0.toNat) := by
    rw [sub_eq_iff_eq_add, hcast, hcast, ← BitVec.ofInt_add, Int.sub_add_cancel]
  rw [hdiff, hcast, BitVec.ofInt_mul]

/-- The unsigned blend takes the flooring quotient of the exact product: what the product loses modulo 2^64 is, divided
by 256, a multiple of 2^56, and no bit below bit 32 sees it (41_engine.md R95; D21, log 11). -/
theorem blendUnsigned_eq_ofInt (b0 b1 : Word) (a : BitVec 8) :
    blendUnsigned b0 b1 a =
      BitVec.ofInt 32 (b0.toNat + blendQuotient .floor (a.toNat * ((b1.toNat : Int) - b0.toNat))) := by
  rw [blendQuotient_floor, blendUnsigned, blendProduct_eq_ofInt]
  generalize (a.toNat : Int) * ((b1.toNat : Int) - b0.toNat) = p
  refine BitVec.eq_of_toNat_eq ?_
  simp only [BitVec.toNat_setWidth, BitVec.toNat_add, BitVec.toNat_udiv, BitVec.toNat_ofInt, BitVec.toNat_ofNat,
    Nat.reducePow, Nat.reduceMod, Nat.cast_ofNat]
  omega

/-- Settles O19: the quotient that floors is `Int.fdiv`. -/
theorem unsignedBlendIsTheFloorOfTheExactQuotient : Obligations.UnsignedBlendIsTheFloorOfTheExactQuotient :=
  blendUnsigned_eq_ofInt

@[simp] theorem blendQuotient_zero (div : BlendDiv) : blendQuotient div 0 = 0 := by cases div <;> rfl

/-- A blend of exact integers with a weight below 256 lies between its end points, with either rounding: the quotient
has the product's sign, or is 0, and is no further from 0 than the bases from each other (41_engine.md R95). -/
theorem blend_between (div : BlendDiv) (x y : Int) (a : BitVec 8) :
    min x y ≤ x + blendQuotient div (a.toNat * (y - x)) ∧ x + blendQuotient div (a.toNat * (y - x)) ≤ max x y := by
  have ha : (a.toNat : Int) ≤ 256 := by omega
  have hup : x ≤ y → 0 ≤ (a.toNat : Int) * (y - x) ∧ (a.toNat : Int) * (y - x) ≤ 256 * (y - x) := fun h =>
    ⟨Int.mul_nonneg (by omega) (by omega), Int.mul_le_mul_of_nonneg_right ha (by omega)⟩
  have hdown : y ≤ x → (a.toNat : Int) * (y - x) ≤ 0 ∧ 256 * (y - x) ≤ (a.toNat : Int) * (y - x) := fun h =>
    ⟨Int.mul_nonpos_of_nonneg_of_nonpos (by omega) (by omega), Int.mul_le_mul_of_nonpos_right ha (by omega)⟩
  generalize (a.toNat : Int) * (y - x) = p at hup hdown
  cases div
  case floor =>
    rw [blendQuotient_floor]
    omega
  case trunc =>
    rw [blendQuotient_trunc, blendQuotient_floor]
    split <;> omega

/-- Without a product the unsigned blend is `base[0]`. -/
theorem blendUnsigned_of_product_zero {b0 b1 : Word} {a : BitVec 8}
    (h : (a.toNat : Int) * ((b1.toNat : Int) - b0.toNat) = 0) : blendUnsigned b0 b1 a = b0 := by
  rw [blendUnsigned_eq_ofInt, h, blendQuotient_zero, Int.add_zero, BitVec.ofInt_natCast, BitVec.ofNat_toNat,
    BitVec.setWidth_eq]

/-- Without a product the signed blend is `base[0]`, with either rounding. -/
theorem blendSigned_of_product_zero {div : BlendDiv} {b0 b1 : Word} {a : BitVec 8}
    (h : (a.toNat : Int) * (s32 b1 - s32 b0) = 0) : blendSigned div b0 b1 a = b0 := by
  rw [blendSigned, h, blendQuotient_zero, Int.add_zero, s32, BitVec.ofInt_toInt]

/-- The unsigned blend never wraps: as a number it is the exact blend (41_engine.md R95). -/
theorem toNat_blendUnsigned (b0 b1 : Word) (a : BitVec 8) :
    ((blendUnsigned b0 b1 a).toNat : Int) =
      b0.toNat + blendQuotient .floor (a.toNat * ((b1.toNat : Int) - b0.toNat)) := by
  obtain ⟨hmin, hmax⟩ := blend_between .floor b0.toNat b1.toNat a
  rw [blendUnsigned_eq_ofInt, BitVec.toNat_ofInt]
  omega

/-- The signed blend never wraps: as a signed number it is the exact blend (41_engine.md R95). -/
theorem s32_blendSigned (div : BlendDiv) (b0 b1 : Word) (a : BitVec 8) :
    s32 (blendSigned div b0 b1 a) = s32 b0 + blendQuotient div (a.toNat * (s32 b1 - s32 b0)) := by
  obtain ⟨hmin, hmax⟩ := blend_between div (s32 b0) (s32 b1) a
  have hrange : ∀ b : Word, -2 ^ 31 ≤ s32 b ∧ s32 b < 2 ^ 31 := fun b => ⟨b.le_toInt, b.toInt_lt⟩
  have h0 := hrange b0
  have h1 := hrange b1
  exact BitVec.toInt_ofInt_eq_self (by decide) (by omega) (by omega)

/-- Settles O21: the end points have product 0, and neither blend wraps, so each lies where its exact blend does. -/
theorem blendStaysBetweenItsEndPoints : Obligations.BlendStaysBetweenItsEndPoints := by
  intro div b0 b1 a
  have hunsigned := blend_between .floor b0.toNat b1.toNat a
  have hsigned := blend_between div (s32 b0) (s32 b1) a
  rw [← toNat_blendUnsigned] at hunsigned
  rw [← s32_blendSigned] at hsigned
  obtain ⟨humin, humax⟩ := hunsigned
  obtain ⟨hsmin, hsmax⟩ := hsigned
  exact ⟨blendUnsigned_of_product_zero (by simp), blendSigned_of_product_zero (by simp),
    blendUnsigned_of_product_zero (by simp), blendSigned_of_product_zero (by simp),
    by omega, by omega, hsmin, hsmax⟩

/-! ### The modes and the presentations -/

/-- Clamp mode needs lane 0's flag and the capability (41_engine.md R81). -/
theorem doClamp_iff (cap : Cap) (u : InterpUnit) :
    doClamp cap u = true ↔ u.ctrl0.clamp = true ∧ cap = .clampCapable := by
  simp [doClamp]

/-- Blend mode needs lane 1's flag and the capability (41_engine.md R81; log 15). -/
theorem doBlend_iff (cap : Cap) (u : InterpUnit) :
    doBlend cap u = true ↔ u.ctrl1.blend = true ∧ cap = .blendCapable := by
  simp [doBlend]

/-- Settles O22: the two modes need different capabilities, and no stage reads the two bits changed. -/
theorem modesAreGatedByCapabilityAndExclusive : Obligations.ModesAreGatedByCapabilityAndExclusive := by
  intro cap u
  refine ⟨doClamp_iff cap u, doBlend_iff cap u, ?_, fun _ _ _ _ => rfl⟩
  rintro ⟨hclamp, hblend⟩
  obtain ⟨-, rfl⟩ := (doClamp_iff _ _).mp hclamp
  obtain ⟨-, hcap⟩ := (doBlend_iff _ _).mp hblend
  cases hcap

/-- Settles O17: of the engine's results only lane 0's presentation reads the flag. -/
theorem clampFlagChangesLane0Only : Obligations.ClampFlagChangesLane0Only :=
  fun g cap _ u c => ⟨lane0Present g cap { u with ctrl0 := { u.ctrl0 with clamp := c } }, rfl⟩

/-- Settles O23: the result of windows in order is the record of the presentations. -/
theorem presentationsFollowTheMode : Obligations.PresentationsFollowTheMode := by
  intro g cap div u e h
  obtain ⟨-, rfl⟩ := engine_inv h
  exact ⟨rfl, rfl, rfl, rfl, rfl⟩

/-- The force bits are the field `force_msb` placed at bit 28 (41_engine.md R96; C1, log 16). -/
theorem forceBits_eq_placeField (c : CtrlConfig) : forceBits c = placeField c.forceMsb 28 := rfl

/-- Settles O24: the field's two bits stand at 28 and 29, and it has no others. -/
theorem forceBitsStandAt29And28 : Obligations.ForceBitsStandAt29And28 := by
  intro c k
  rw [forceBits_eq_placeField]
  by_cases hfield : 28 + 2 ≤ k ∨ k < 28
  · have hk : k ≠ 28 ∧ k ≠ 29 := by omega
    simp [getLsbD_placeField_of_disjoint c.forceMsb hfield, hk]
  · obtain rfl | rfl : k = 28 ∨ k = 29 := by omega
    all_goals simp

/-! ### The result as a whole -/

theorem windowsInOrder_iff (u : InterpUnit) :
    u.windowsInOrder = true ↔
      u.ctrl0.maskLsb.toNat ≤ u.ctrl0.maskMsb.toNat ∧ u.ctrl1.maskLsb.toNat ≤ u.ctrl1.maskMsb.toNat := by
  rw [InterpUnit.windowsInOrder, Bool.and_eq_true, windowInOrder_iff, windowInOrder_iff]

/-- Settles O26: the engine has a result when the two windows are in order, and one of them is not. -/
theorem engineUnsupportedExactlyWhileAWindowIsInverted :
    Obligations.EngineUnsupportedExactlyWhileAWindowIsInverted := by
  intro g cap div u
  have hnone : engine g cap div u = none ↔ ¬ u.windowsInOrder = true := by simp [engine]
  rw [hnone, windowsInOrder_iff]
  omega

end Sys2Proof.Machine

/-! The statements that rest on spec/42_write_ops.md: the writes of the accumulators (R110, R111), of the bases (R112 to
R114) and the adds (R117, R118). Each has its presentation and its line of text, and is one `writeUnit`. -/

namespace Sys2Proof

/-- The decoder reads every operation back from its presentation (30_encoding.md R55; D2, log 2). -/
theorem decode_encode (i : Instr) : decode (encode i) = .ok i := by
  cases i <;> simp [encode, decode]

end Sys2Proof

namespace Sys2Proof.Machine

/-! ### What the writes share -/

/-- A `write` line stands for the one operation that its register name gives (30_encoding.md R61,
44_pseudo_ops.md R164). -/
theorem Line.expand_write {n : UnitId} {r : RegName} {v : Word} {i : Instr} (h : r.writeInstr n v = some i) :
    (Line.write n r v).expand = [i] := by
  rw [Line.expand, h, Option.toList_some]

/-- An operation that is a write completes and has a write's frame (42_write_ops.md R109). -/
theorem exec_next_of_eq_writeUnit {i : Instr} {n : UnitId} {f : InterpUnit → InterpUnit} {s : State}
    (h : exec i s = writeUnit n f s) :
    ∃ t, exec i s = .next t ∧ UnitBecomes n (f (s.unit n)) none s t := by
  rw [h]
  exact writeUnit_next n f s

section Equations

variable (n : UnitId) (v : Word) (s : State)

theorem exec_writeAccum0 : exec (.writeAccum0 n v) s = writeUnit n (fun u => { u with accum0 := v }) s := rfl
theorem exec_writeAccum1 : exec (.writeAccum1 n v) s = writeUnit n (fun u => { u with accum1 := v }) s := rfl
theorem exec_writeBase0 : exec (.writeBase0 n v) s = writeUnit n (fun u => { u with base0 := v }) s := rfl
theorem exec_writeBase1 : exec (.writeBase1 n v) s = writeUnit n (fun u => { u with base1 := v }) s := rfl
theorem exec_writeBase2 : exec (.writeBase2 n v) s = writeUnit n (fun u => { u with base2 := v }) s := rfl
theorem exec_writeAdd0 :
    exec (.writeAdd0 n v) s = writeUnit n (fun u => { u with accum0 := u.accum0 + v }) s := rfl
theorem exec_writeAdd1 :
    exec (.writeAdd1 n v) s = writeUnit n (fun u => { u with accum1 := u.accum1 + v }) s := rfl

end Equations

/-! ### The accumulators -/

/-- Settles O28: each is an operation of the table, a `write` line and one write of its accumulator. -/
theorem writeAccumSetsOneAccumulator : Obligations.WriteAccumSetsOneAccumulator :=
  fun n v s =>
    ⟨decode_encode (.writeAccum0 n v), Line.expand_write rfl, exec_next_of_eq_writeUnit (exec_writeAccum0 n v s),
      decode_encode (.writeAccum1 n v), Line.expand_write rfl, exec_next_of_eq_writeUnit (exec_writeAccum1 n v s)⟩

/-! ### The bases -/

/-- A lane's input, shift and window come from no base (41_engine.md R82 to R84). -/
theorem sameLane_of_bases (u : InterpUnit) (b0 b1 b2 : Word) (i : Lane) :
    SameLane i { u with base0 := b0, base1 := b1, base2 := b2 } u := by
  cases i with
  | lane0 => exact ⟨rfl, rfl, rfl, rfl⟩
  | lane1 => exact ⟨rfl, rfl, rfl, rfl⟩

/-- Settles O29: a flag sees only what `SameLane` keeps, which no base is part of; each write is an operation of the
table, a `write` line and one write of its base. -/
theorem writeBaseSetsOneBase : Obligations.WriteBaseSetsOneBase :=
  ⟨fun g u b0 b1 b2 i => (sameLane_of_bases u b0 b1 b2 i).laneOverflow_eq g,
    fun n v s =>
      ⟨decode_encode (.writeBase0 n v), Line.expand_write rfl, exec_next_of_eq_writeUnit (exec_writeBase0 n v s),
        decode_encode (.writeBase1 n v), Line.expand_write rfl, exec_next_of_eq_writeUnit (exec_writeBase1 n v s),
        decode_encode (.writeBase2 n v), Line.expand_write rfl, exec_next_of_eq_writeUnit (exec_writeBase2 n v s)⟩⟩

/-! ### The adds -/

/-- Settles O31: each is an operation of the table, a `write` line and one write of its accumulator's sum, which
`BitVec.toNat_add` reads modulo 2^32. -/
theorem writeAddAddsToOneAccumulator : Obligations.WriteAddAddsToOneAccumulator := by
  intro n v s
  obtain ⟨t₀, hexec₀, hunit₀⟩ := exec_next_of_eq_writeUnit (exec_writeAdd0 n v s)
  obtain ⟨t₁, hexec₁, hunit₁⟩ := exec_next_of_eq_writeUnit (exec_writeAdd1 n v s)
  exact
    ⟨decode_encode (.writeAdd0 n v), Line.expand_write rfl, ⟨t₀, _, hexec₀, BitVec.toNat_add _ _, hunit₀⟩,
      decode_encode (.writeAdd1 n v), Line.expand_write rfl, ⟨t₁, _, hexec₁, BitVec.toNat_add _ _, hunit₁⟩⟩

end Sys2Proof.Machine

/-! The statements that rest on spec/43_read_ops.md: what a read drives and leaves unchanged (R129 to R136), the full
pop (R148), the refusal of an inverted window (R149) and a peek before a pop (R150). -/

namespace Sys2Proof

/-- A read is decoded whatever the data word presented with it (30_encoding.md R54; D2, log 2). -/
theorem decode_encode_of_read {i : Instr} (h : i.isWrite = false) (x : Word) :
    decode { encode i with wdata := x } = .ok i := by
  cases i <;> simp [Instr.isWrite, encode, decode] at h ⊢

end Sys2Proof

namespace Sys2Proof.Machine

/-- A `read` line, with an expected value or without, stands for the one operation that its register name gives
(30_encoding.md R61). -/
theorem Line.expand_read {n : UnitId} {r : RegName} {expected : Option Word} {i : Instr}
    (h : r.readInstr n = some i) : (Line.read n r expected).expand = [i] := by
  rw [Line.expand, h, Option.toList_some]

/-! ### The plain reads -/

section Equations

variable (n : UnitId) (s : State)

theorem exec_readAccum0 : exec (.readAccum0 n) s = .next (s.drive (s.unit n).accum0) := rfl
theorem exec_readAccum1 : exec (.readAccum1 n) s = .next (s.drive (s.unit n).accum1) := rfl
theorem exec_readBase0 : exec (.readBase0 n) s = .next (s.drive (s.unit n).base0) := rfl
theorem exec_readBase1 : exec (.readBase1 n) s = .next (s.drive (s.unit n).base1) := rfl
theorem exec_readBase2 : exec (.readBase2 n) s = .next (s.drive (s.unit n).base2) := rfl

end Equations

/-- Settles O33: each is an operation of the table, a `read` line, and drives its stored register in every state. -/
theorem plainReadsReturnTheStoredRegister : Obligations.PlainReadsReturnTheStoredRegister :=
  fun n x s =>
    ⟨decode_encode_of_read (i := .readAccum0 n) rfl x, Line.expand_read rfl, exec_readAccum0 n s,
      decode_encode_of_read (i := .readAccum1 n) rfl x, Line.expand_read rfl, exec_readAccum1 n s,
      decode_encode_of_read (i := .readBase0 n) rfl x, Line.expand_read rfl, exec_readBase0 n s,
      decode_encode_of_read (i := .readBase1 n) rfl x, Line.expand_read rfl, exec_readBase1 n s,
      decode_encode_of_read (i := .readBase2 n) rfl x, Line.expand_read rfl, exec_readBase2 n s⟩

/-! ### The control reads -/

section ControlReads

variable (c : CtrlConfig) (o₀ o₁ o : Bool)

/-- The word of a control read decodes to the stored fields and the flags shown (43_read_ops.md R135, R136). -/
theorem decodeCtrl_wordOfConfig :
    decodeCtrl (wordOfConfig c o₀ o₁ o) =
      { toCtrlConfig := c, overf0 := o₀, overf1 := o₁, overf := o, reserved := 0#6 } :=
  decodeCtrl_encodeCtrl _

theorem configOfWord_wordOfConfig : configOfWord (wordOfConfig c o₀ o₁ o) = c :=
  congrArg ControlRecord.toCtrlConfig (decodeCtrl_wordOfConfig c o₀ o₁ o)

/-- The flags stand in bits 23, 24 and 25 (30_encoding.md R58; decision D1, log 1). -/
theorem wordOfConfig_flags :
    (wordOfConfig c o₀ o₁ o).getLsbD 23 = o₀ ∧ (wordOfConfig c o₀ o₁ o).getLsbD 24 = o₁ ∧
    (wordOfConfig c o₀ o₁ o).getLsbD 25 = o := by
  have hdecode := decodeCtrl_wordOfConfig c o₀ o₁ o
  exact ⟨congrArg ControlRecord.overf0 hdecode, congrArg ControlRecord.overf1 hdecode,
    congrArg ControlRecord.overf hdecode⟩

/-- The reserved field reads as 0 (30_encoding.md R58). -/
theorem toNat_wordOfConfig_lt : (wordOfConfig c o₀ o₁ o).toNat < 2 ^ 26 := by
  obtain ⟨hvalue, hbound⟩ := packsTo_encodeCtrl
    { toCtrlConfig := c, overf0 := o₀, overf1 := o₁, overf := o, reserved := 0#6 }
  rw [wordOfConfig, hvalue]
  exact hbound

/-- With clear flags the word of a control read is made of bits 22:0 alone: its own fields, read again, are all it
shows. -/
theorem toNat_wordOfConfig_clear_lt : (wordOfConfig c false false false).toNat < 2 ^ 23 := by
  have hmask := wordOfConfig_configOfWord_clear (wordOfConfig c false false false)
  rw [configOfWord_wordOfConfig] at hmask
  rw [hmask, BitVec.toNat_and]
  exact Nat.lt_of_le_of_lt Nat.and_le_right (by decide)

end ControlReads

/-- Settles O34: `READ_CTRL1` drives the stored record's word with clear flags, in every state. -/
theorem readCtrl1ReturnsTheStoredFields : Obligations.ReadCtrl1ReturnsTheStoredFields :=
  fun n x s =>
    ⟨decode_encode_of_read (i := .readCtrl1 n) rfl x, Line.expand_read rfl, _, exec_readCtrl1 n s,
      configOfWord_wordOfConfig _ _ _ _, toNat_wordOfConfig_clear_lt _⟩

/-- Settles O35: with the windows in order the engine has a result, whose flags `READ_CTRL0` shows beside the stored
record. -/
theorem readCtrl0ReturnsTheFieldsAndFlags : Obligations.ReadCtrl0ReturnsTheFieldsAndFlags := by
  intro n x s
  refine ⟨decode_encode_of_read (i := .readCtrl0 n) rfl x, Line.expand_read rfl, fun hwindows => ?_⟩
  have hengine := engineOf_of_inOrder hwindows
  obtain ⟨hoverf0, hoverf1, hoverf⟩ := wordOfConfig_flags (s.unit n).ctrl0 _ _ _
  exact ⟨_, _, hengine, exec_readCtrl0_of_engineOf hengine, configOfWord_wordOfConfig _ _ _ _,
    hoverf0, hoverf1, hoverf, toNat_wordOfConfig_lt _ _ _ _⟩

/-! ### The full pop -/

/-- An operation that is a pop, with the windows in order: the result is the engine's before the writeback, and all but
the two accumulators is unchanged (43_read_ops.md R145 to R148). -/
theorem exec_next_of_eq_popEngine {i : Instr} {n : UnitId} {f : EngineResult → Word} {s : State}
    (h : exec i s = popEngine n f s) (hwindows : (s.unit n).windowsInOrder = true) :
    ∃ e t, s.engineOf n = some e ∧ exec i s = .next t ∧
      UnitBecomes n (writeback e (s.unit n)) (some (f e)) s t := by
  rw [h, popEngine_of_inOrder f hwindows]
  exact ⟨_, _, engineOf_of_inOrder hwindows, rfl, by simp [UnitBecomes]⟩

theorem exec_readPop2 (n : UnitId) (s : State) :
    exec (.readPop2 n) s = popEngine n (fun e => e.peek2) s := rfl

/-- Settles O38: `READ_POP2` is an operation of the table, a `read` line and a pop of the full result (D9, log 9). -/
theorem fullPopReturnsAndWritesBack : Obligations.FullPopReturnsAndWritesBack :=
  fun n x s =>
    ⟨decode_encode_of_read (i := .readPop2 n) rfl x, Line.expand_read rfl,
      exec_next_of_eq_popEngine (exec_readPop2 n s)⟩

/-! ### A peek before a pop -/

/-- A read of the engine leaves its result as it was, so the pop of the same result completes and returns the same value
(43_read_ops.md R150). -/
theorem popEngine_after_readEngine {n : UnitId} {f : EngineResult → Word} {s t : State}
    (h : readEngine n f s = .next t) : ∃ t', popEngine n f t = .next t' ∧ t'.rdata = t.rdata := by
  obtain ⟨-, e, hengine, rfl⟩ := readEngine_inv h
  have hkept : (s.drive (f e)).engineOf n = some e := by rw [engineOf_drive, hengine]
  exact ⟨((s.drive (f e)).setUnit n (writeback e (s.unit n))).drive (f e), by simp [popEngine, hkept], rfl⟩

/-- Settles O46: each peek and its pop read the same result of the engine. -/
theorem peekThenPopReturnsTheSameValue : Obligations.PeekThenPopReturnsTheSameValue :=
  fun _ _ _ => ⟨popEngine_after_readEngine, popEngine_after_readEngine, popEngine_after_readEngine⟩

/-! ### What is driven -/

/-- A write leaves no driven data (42_write_ops.md R109). -/
theorem exec_rdata_of_write {i : Instr} {s t : State} (hwrite : i.isWrite = true) (h : exec i s = .next t) :
    t.rdata = none := by
  obtain ⟨_, hf, -⟩ | ⟨_, -, hread, -⟩ | ⟨_, -, hread, -⟩ | ⟨_, -, hread, -⟩ := exec_cases i s
  · rw [hf] at h
    obtain ⟨-, -, -, -, hdata⟩ := writeUnit_inv h
    exact hdata
  all_goals exact absurd hwrite (by simp [hread])

/-- A read drives a word, a pop too (30_encoding.md R54). -/
theorem exec_rdata_of_read {i : Instr} {s t : State} (hread : i.isWrite = false) (h : exec i s = .next t) :
    ∃ v, t.rdata = some v := by
  obtain ⟨_, -, hwrite, -⟩ | ⟨_, hf, -⟩ | ⟨_, hf, -⟩ | ⟨_, hf, -⟩ := exec_cases i s
  · exact absurd hwrite (by simp [hread])
  all_goals rw [hf] at h
  · rw [readStored_inv h]
    exact ⟨_, rfl⟩
  · obtain ⟨-, e, -, rfl⟩ := readEngine_inv h
    exact ⟨_, rfl⟩
  · obtain ⟨-, e, -, rfl⟩ := popEngine_inv h
    exact ⟨_, rfl⟩

/-- Settles O44: the driven data by the two lemmas above, the frame of a read by `exec_eq_drive_of_read`. -/
theorem onlyPopsAmongReadsChangeRegisters : Obligations.OnlyPopsAmongReadsChangeRegisters :=
  fun _ _ _ h =>
    ⟨fun hwrite => exec_rdata_of_write hwrite h, fun hread => exec_rdata_of_read hread h,
      fun hread hpop => exec_eq_drive_of_read hread hpop h⟩

/-! ### The refusal of an inverted window -/

/-- An operation that does not need the engine, or finds the windows of its unit in order, completes
(43_read_ops.md R149). -/
theorem exec_next_of_engine_available {i : Instr} {s : State}
    (h : i.needsEngine = false ∨ (s.unit i.unitOf).windowsInOrder = true) : ∃ t, exec i s = .next t := by
  obtain ⟨_, hf, -⟩ | ⟨_, hf, -⟩ | ⟨f, hf, -, hneeds, -⟩ | ⟨f, hf, -, hneeds, -⟩ := exec_cases i s <;> rw [hf]
  · exact ⟨_, rfl⟩
  · exact ⟨_, rfl⟩
  · exact ⟨_, readEngine_of_inOrder f (h.resolve_left (by simp [hneeds]))⟩
  · exact ⟨_, popEngine_of_inOrder f (h.resolve_left (by simp [hneeds]))⟩

/-- An operation that needs the engine while a window of its unit is inverted is refused (43_read_ops.md R149; D6,
log 6). -/
theorem exec_refused_of_inverted {i : Instr} {s : State} (hneeds : i.needsEngine = true)
    (hinverted : (s.unit i.unitOf).windowsInOrder = false) :
    exec i s = .refused (.invertedWindow i.unitOf) := by
  obtain ⟨_, -, -, hnot⟩ | ⟨_, -, -, hnot, -⟩ | ⟨f, hf, -⟩ | ⟨f, hf, -⟩ := exec_cases i s
  · exact absurd hneeds (by simp [hnot])
  · exact absurd hneeds (by simp [hnot])
  · rw [hf, readEngine_of_inverted f hinverted]
  · rw [hf, popEngine_of_inverted f hinverted]

/-- Settles O39: the two conditions exclude each other and one of them holds, so the two lemmas above decide both
outcomes. -/
theorem refusedExactlyWhileTheEngineIsNeededAndInverted :
    Obligations.RefusedExactlyWhileTheEngineIsNeededAndInverted := by
  intro i s
  by_cases hrefused : i.needsEngine = true ∧ (s.unit i.unitOf).windowsInOrder = false
  · obtain ⟨hneeds, hinverted⟩ := hrefused
    simp [exec_refused_of_inverted hneeds hinverted, hneeds, hinverted]
  · have havailable : i.needsEngine = false ∨ (s.unit i.unitOf).windowsInOrder = true := by
      simpa [Decidable.imp_iff_not_or] using hrefused
    obtain ⟨t, ht⟩ := exec_next_of_engine_available havailable
    simp [ht, hrefused, havailable]

end Sys2Proof.Machine

/-! The statements that rest on spec/44_pseudo_ops.md: `state` (R160), `dump` (R161), the compare forms (R162, R163),
`save` and `restore` (R166), and what a list of operations performed one after the other returns (R167). -/

namespace Sys2Proof.Machine

/-! ### A list of operations -/

/-- The outcome of a list of operations with `vs` read before it. -/
def returning (vs : List Word) : Host.Outcome Performed Fault Refusal → Host.Outcome Performed Fault Refusal
  | .next r => .next ⟨r.state, vs ++ r.values⟩
  | .fault f => .fault f
  | .refused r => .refused r

@[simp] theorem returning_next (vs : List Word) (r : Performed) :
    returning vs (.next r) = .next ⟨r.state, vs ++ r.values⟩ := rfl

@[simp] theorem returning_refused (vs : List Word) (r : Refusal) : returning vs (.refused r) = .refused r := rfl

@[simp] theorem returning_nil (o : Host.Outcome Performed Fault Refusal) : returning [] o = o := by
  cases o <;> rfl

@[simp] theorem returning_returning (vs ws : List Word) (o : Host.Outcome Performed Fault Refusal) :
    returning vs (returning ws o) = returning (vs ++ ws) o := by
  cases o <;> simp [returning]

@[simp] theorem performAll_nil (s : State) : performAll [] s = .next ⟨s, []⟩ := rfl

/-- An operation that completes hands its state on and puts what it drives before the values of the rest. -/
theorem performAll_cons_of_next {i : Instr} {s t : State} (h : exec i s = .next t) (is : List Instr) :
    performAll (i :: is) s = returning t.rdata.toList (performAll is t) := by
  rw [performAll, h]
  cases h' : performAll is t <;> simp [returning, h']

/-- A refusal stops the list (60_exceptions.md R173). -/
theorem performAll_cons_of_refused {i : Instr} {s : State} {r : Refusal} (h : exec i s = .refused r)
    (is : List Instr) : performAll (i :: is) s = .refused r := by
  rw [performAll, h]

/-! ### The seven writes of a `state` line -/

theorem exec_writeCtrl0 (n : UnitId) (w : Word) (s : State) :
    exec (.writeCtrl0 n w) s = writeUnit n (fun u => { u with ctrl0 := configOfWord w }) s := rfl

theorem exec_writeCtrl1 (n : UnitId) (w : Word) (s : State) :
    exec (.writeCtrl1 n w) s = writeUnit n (fun u => { u with ctrl1 := configOfWord w }) s := rfl

/-- The seven registers that the words of a `state` line stand for (44_pseudo_ops.md R160). -/
def UnitWords.toUnit (w : UnitWords) : InterpUnit :=
  ⟨w.accum0, w.accum1, w.base0, w.base1, w.base2, configOfWord w.ctrl0, configOfWord w.ctrl1⟩

/-- A unit after one of the writes that a `state` line is made of: one register replaced, whatever it held. No other
operation is a part of the line. -/
def storeInto (u : InterpUnit) : Instr → InterpUnit
  | .writeAccum0 _ v => { u with accum0 := v }
  | .writeAccum1 _ v => { u with accum1 := v }
  | .writeBase0 _ v => { u with base0 := v }
  | .writeBase1 _ v => { u with base1 := v }
  | .writeBase2 _ v => { u with base2 := v }
  | .writeCtrl0 _ w => { u with ctrl0 := configOfWord w }
  | .writeCtrl1 _ w => { u with ctrl1 := configOfWord w }
  | _ => u

/-- The operation is a write of unit `n` that does what `storeInto` says. -/
def StoresIn (n : UnitId) (i : Instr) : Prop :=
  ∀ s, exec i s = writeUnit n (fun u => storeInto u i) s

theorem storesIn_of_mem_stateWrites {n : UnitId} {w : UnitWords} : ∀ i ∈ stateWrites n w, StoresIn n i := by
  simp only [stateWrites, List.forall_mem_cons]
  exact ⟨exec_writeAccum0 n _, exec_writeAccum1 n _, exec_writeBase0 n _, exec_writeBase1 n _,
    exec_writeBase2 n _, exec_writeCtrl0 n _, exec_writeCtrl1 n _, List.forall_mem_nil _⟩

/-- A line names each of the seven registers once, so the order of two of its writes does not matter. -/
theorem storeInto_comm_of_mem_stateWrites {n : UnitId} {w : UnitWords} :
    ∀ i ∈ stateWrites n w, ∀ j ∈ stateWrites n w, ∀ u,
      storeInto (storeInto u i) j = storeInto (storeInto u j) i := by
  have hsymm : Std.Symm fun i j => ∀ u, storeInto (storeInto u i) j = storeInto (storeInto u j) i :=
    ⟨fun _ _ h u => (h u).symm⟩
  have hpairs : (stateWrites n w).Pairwise fun i j =>
      ∀ u, storeInto (storeInto u i) j = storeInto (storeInto u j) i := by
    simp [stateWrites, storeInto]
  exact hpairs.forall_of_forall fun _ _ _ => rfl

/-- Writing all seven registers leaves nothing of what the unit held. -/
theorem foldl_storeInto_stateWrites (n : UnitId) (w : UnitWords) (u : InterpUnit) :
    (stateWrites n w).foldl storeInto u = w.toUnit := rfl

/-- In any order too, since the stores commute. -/
theorem foldl_storeInto_of_perm {n : UnitId} {w : UnitWords} {ops : List Instr} (h : ops.Perm (stateWrites n w))
    (u : InterpUnit) : ops.foldl storeInto u = w.toUnit :=
  (h.symm.foldl_eq' storeInto_comm_of_mem_stateWrites u).symm.trans (foldl_storeInto_stateWrites n w u)

/-- The second of two writes of a whole unit is the one that stays. -/
@[simp] theorem State.setUnit_undrive_setUnit (s : State) (n : UnitId) (u u' : InterpUnit) :
    (s.setUnit n u).undrive.setUnit n u' = (s.setUnit n u').undrive := by
  cases n <;> rfl

@[simp] theorem State.undrive_undrive (s : State) : s.undrive.undrive = s.undrive := rfl

/-- Stores one after the other complete and read nothing; each sees the unit the last one left. -/
theorem performAll_of_storesIn {n : UnitId} {i : Instr} {is : List Instr} (h : ∀ j ∈ i :: is, StoresIn n j)
    (s : State) :
    performAll (i :: is) s = .next ⟨(s.setUnit n ((i :: is).foldl storeInto (s.unit n))).undrive, []⟩ := by
  induction is generalizing i s with
  | nil =>
    obtain ⟨hi, -⟩ := List.forall_mem_cons.mp h
    rw [performAll_cons_of_next (hi s)]
    simp
  | cons j is ih =>
    obtain ⟨hi, his⟩ := List.forall_mem_cons.mp h
    rw [performAll_cons_of_next (hi s), ih his]
    simp

/-- The writes of a line in any order make the unit the line's words, whatever it held (44_pseudo_ops.md R160). -/
theorem performAll_of_perm_stateWrites {n : UnitId} {w : UnitWords} {ops : List Instr}
    (h : ops.Perm (stateWrites n w)) (s : State) :
    performAll ops s = .next ⟨(s.setUnit n w.toUnit).undrive, []⟩ := by
  have hstores : ∀ i ∈ ops, StoresIn n i := fun i hi => storesIn_of_mem_stateWrites i (h.mem_iff.mp hi)
  cases ops with
  | nil => exact absurd h.length_eq (by simp [stateWrites])
  | cons i is => rw [performAll_of_storesIn hstores, foldl_storeInto_of_perm h]

/-- A unit replaced with no data driven is what a write leaves behind (42_write_ops.md R109). -/
theorem unitBecomes_setUnit_undrive (n : UnitId) (u : InterpUnit) (s : State) :
    UnitBecomes n u none s (s.setUnit n u).undrive := by
  simp [UnitBecomes]

/-- Settles O56: the line's writes in any order leave the unit that the words stand for. -/
theorem stateLineSetsTheWholeUnitInAnyOrder : Obligations.StateLineSetsTheWholeUnitInAnyOrder :=
  fun n _ s _ hperm =>
    ⟨_, performAll_of_perm_stateWrites hperm s, unitBecomes_setUnit_undrive n _ s⟩

/-! ### `save` and `restore` -/

/-- A snapshot's words stand for the registers saved: a control word with clear flags decodes to the record it was
spelled from (44_pseudo_ops.md R166; D17, log 20). -/
theorem toUnit_saveUnit (n : UnitId) (s : State) : (saveUnit n s).toUnit = s.unit n := by
  simp only [UnitWords.toUnit, saveUnit, configOfWord_wordOfConfig]

/-- Settles O57: `restore` performs the writes of a `state` line with the snapshot's words. -/
theorem restoreBringsBackWhatSaveTook : Obligations.RestoreBringsBackWhatSaveTook := by
  intro n s s'
  refine ⟨_, performAll_of_perm_stateWrites (List.Perm.refl _) s', ?_⟩
  rw [toUnit_saveUnit]
  exact unitBecomes_setUnit_undrive n _ s'

/-! ### The twelve reads of `dump` -/

/-- No operation sees the driven data, and each replaces it (00_scope.md R8, 30_encoding.md R54). -/
theorem exec_drive (i : Instr) (s : State) (v : Word) : exec i (s.drive v) = exec i s := by
  have hsame := observe_exec_congr i (AgreeOn.drive i.unitOf s v)
  obtain ⟨t, t', h, h', hunit, hdata⟩ | ⟨r, h, h'⟩ := next_or_refused_of_observe_eq hsame
  · obtain ⟨-, hother, hparams, hpending, -⟩ := exec_unitBecomes h
    obtain ⟨-, hother', hparams', hpending', -⟩ := exec_unitBecomes h'
    have ht : t' = t := State.ext_of_unit i.unitOf (hparams'.trans hparams.symm) hunit.symm
      (hother'.trans ((State.drive_unit s _ v).trans hother.symm)) hdata.symm (hpending'.trans hpending.symm)
    rw [h, h', ht]
  · rw [h, h']

/-- Neither does a list of operations, so long as there is one to replace it. -/
theorem performAll_drive {is : List Instr} (h : is ≠ []) (s : State) (v : Word) :
    performAll is (s.drive v) = performAll is s := by
  cases is with
  | nil => exact absurd rfl h
  | cons i is => rw [performAll, exec_drive, ← performAll]

/-- The operation completes with `v` and changes nothing but the driven data. -/
def ReadsAs (s : State) (i : Instr) (v : Word) : Prop :=
  exec i s = .next (s.drive v)

/-- Reads leave to the operations after them the state they found. -/
theorem performAll_append_of_reads {s : State} {is js : List Instr} {vs : List Word}
    (h : List.Forall₂ (ReadsAs s) is vs) (hjs : js ≠ []) :
    performAll (is ++ js) s = returning vs (performAll js s) := by
  induction h with
  | nil => simp
  | @cons i v is vs hi _ ih =>
    have hrest : is ++ js ≠ [] := List.append_ne_nil_of_right_ne_nil is hjs
    calc performAll (i :: (is ++ js)) s
        = returning [v] (performAll (is ++ js) (s.drive v)) := performAll_cons_of_next hi _
      _ = returning [v] (returning vs (performAll js s)) := by rw [performAll_drive hrest, ih]
      _ = returning (v :: vs) (performAll js s) := returning_returning [v] vs _

/-- Reads alone: the values in their order, and the last of them driven. -/
theorem performAll_of_reads {s : State} {is : List Instr} {i : Instr} {vs : List Word} {v : Word}
    (h : List.Forall₂ (ReadsAs s) is vs) (hi : ReadsAs s i v) :
    performAll (is ++ [i]) s = .next ⟨s.drive v, vs ++ [v]⟩ := by
  rw [performAll_append_of_reads h (List.cons_ne_nil i []), performAll_cons_of_next hi]
  simp

/-- A refused operation after reads is the outcome of the list. -/
theorem performAll_refused_after_reads {s : State} {is : List Instr} {i : Instr} {vs : List Word} {r : Refusal}
    (h : List.Forall₂ (ReadsAs s) is vs) (hi : exec i s = .refused r) (js : List Instr) :
    performAll (is ++ i :: js) s = .refused r := by
  rw [performAll_append_of_reads h (List.cons_ne_nil i js), performAll_cons_of_refused hi, returning_refused]

/-- The five plain registers, with which a `dump` begins, are read in every state. -/
theorem readsAs_plainRegisters (n : UnitId) (s : State) :
    List.Forall₂ (ReadsAs s) [.readAccum0 n, .readAccum1 n, .readBase0 n, .readBase1 n, .readBase2 n]
      [(s.unit n).accum0, (s.unit n).accum1, (s.unit n).base0, (s.unit n).base1, (s.unit n).base2] :=
  .cons (exec_readAccum0 n s) <| .cons (exec_readAccum1 n s) <| .cons (exec_readBase0 n s) <|
    .cons (exec_readBase1 n s) <| .cons (exec_readBase2 n s) .nil

section Engine

variable {n : UnitId} {s : State} {e : EngineResult} (h : s.engineOf n = some e)
include h

/-- A read of the engine's result answers it. -/
theorem readEngine_of_engineOf (f : EngineResult → Word) : readEngine n f s = .next (s.drive (f e)) := by
  rw [readEngine, h]

/-- The control words and the results before the last, with the engine's result at hand. -/
theorem readsAs_ctrlsAndResults :
    List.Forall₂ (ReadsAs s)
      [.readCtrl0 n, .readCtrl1 n, .readPeek0 n, .readPeek1 n, .readPeek2 n, .readPeekraw0 n]
      [wordOfConfig (s.unit n).ctrl0 e.overf0 e.overf1 e.overf, wordOfConfig (s.unit n).ctrl1 false false false,
        e.peek0, e.peek1, e.peek2, e.peekraw0] :=
  .cons (exec_readCtrl0_of_engineOf h) <| .cons (exec_readCtrl1 n s) <|
    .cons (readEngine_of_engineOf h fun e => e.peek0) <| .cons (readEngine_of_engineOf h fun e => e.peek1) <|
    .cons (readEngine_of_engineOf h fun e => e.peek2) <| .cons (readEngine_of_engineOf h fun e => e.peekraw0) .nil

/-- The twelve values of a `dump`, with the engine's result at hand (44_pseudo_ops.md R161; D18, log 24). -/
theorem performAll_dumpReads_of_engineOf :
    performAll (dumpReads n) s =
      .next ⟨s.drive e.peekraw1,
        [(s.unit n).accum0, (s.unit n).accum1, (s.unit n).base0, (s.unit n).base1, (s.unit n).base2,
          wordOfConfig (s.unit n).ctrl0 e.overf0 e.overf1 e.overf, wordOfConfig (s.unit n).ctrl1 false false false,
          e.peek0, e.peek1, e.peek2, e.peekraw0, e.peekraw1]⟩ :=
  performAll_of_reads (i := .readPeekraw1 n) (List.rel_append (readsAs_plainRegisters n s) (readsAs_ctrlsAndResults h))
    (readEngine_of_engineOf h fun e => e.peekraw1)

end Engine

/-- A `dump` is refused at `READ_CTRL0`, its first read of the engine, while a window is inverted
(43_read_ops.md R149; D6, log 6). -/
theorem performAll_dumpReads_of_inverted {n : UnitId} {s : State} (h : (s.unit n).windowsInOrder = false) :
    performAll (dumpReads n) s = .refused (.invertedWindow n) :=
  performAll_refused_after_reads (readsAs_plainRegisters n s)
    (exec_refused_of_inverted (i := .readCtrl0 n) rfl h) _

theorem Line.expand_dump_plain (n : UnitId) : (Line.dump n none).expand = dumpReads n := rfl

/-- A `dump` that compares another number of values is not well formed (44_pseudo_ops.md R168). -/
theorem Line.wf_dump_compare (n : UnitId) (es : List Word) : (Line.dump n (some es)).wf = (es.length == 12) := rfl

/-- Settles O58: twelve reads with the windows in order, a refusal at the sixth with one inverted, and the reads of a
comparison by the number of its values. -/
theorem dumpReadsTwelveValuesAndChangesNothing : Obligations.DumpReadsTwelveValuesAndChangesNothing := by
  intro n s
  refine ⟨fun hwindows => ?_, performAll_dumpReads_of_inverted, fun es => ⟨fun hlen => ?_, fun hlen => ?_⟩⟩
  · have hengine := engineOf_of_inOrder hwindows
    exact ⟨_, _, hengine, exec_readCtrl0_of_engineOf hengine, performAll_dumpReads_of_engineOf hengine⟩
  · rw [Line.expand_dump_compare, if_pos hlen, Line.expand_dump_plain]
  · have hwf : (Line.dump n (some es)).wf = false := by rw [Line.wf_dump_compare, beq_eq_false_iff_ne]; exact hlen
    exact ⟨Line.expand_of_not_wf hwf, presentLine_of_not_wf hwf s⟩

/-! ### The compare forms -/

/-- A comparison answers `ok` exactly on equality (44_pseudo_ops.md R163). -/
theorem answerTo_some_eq_ok_iff (es vs : List Word) : answerTo (some es) vs = .ok ↔ vs = es := by
  by_cases h : vs = es <;> simp [answerTo_some, h]

/-- A comparison that fails answers the exclusive-or of each pair (44_pseudo_ops.md R162). -/
theorem answerTo_some_of_ne {es vs : List Word} (h : vs ≠ es) :
    answerTo (some es) vs = .diff (List.zipWith (· ^^^ ·) vs es) := by
  rw [answerTo_some, if_neg h]

/-- A line that stands for an operation is well formed. -/
theorem Line.wf_of_expand_ne_nil {l : Line} (h : l.expand ≠ []) : l.wf = true :=
  Bool.eq_true_of_not_eq_false fun hwf => h (Line.expand_of_not_wf hwf)

/-- A `read` line's answer, by its expected value or none; whether the name reads does not depend on that. -/
theorem Line.answer_read {n : UnitId} {r : RegName} (h : (Line.read n r none).wf = true) (expected : Option Word)
    (vs : List Word) :
    (Line.read n r expected).answer vs = some (answerTo (expected.map fun e => [e]) vs) :=
  if_pos h

/-- A `dump` line's answer. -/
theorem Line.answer_dump {n : UnitId} {expected : Option (List Word)} (h : (Line.dump n expected).wf = true)
    (vs : List Word) : (Line.dump n expected).answer vs = some (answerTo expected vs) :=
  if_pos h

/-- The words of a difference: each the exclusive-or of its pair, and zero exactly where the two agree. -/
theorem getElem?_zipWith_xor {vs es : List Word} {k : Nat} {v e : Word} (hv : vs[k]? = some v)
    (he : es[k]? = some e) :
    ∃ x, (List.zipWith (· ^^^ ·) vs es)[k]? = some x ∧ x = v ^^^ e ∧ (x = 0#32 ↔ v = e) :=
  ⟨v ^^^ e, List.getElem?_zipWith_eq_some.mpr ⟨v, e, hv, he, rfl⟩, rfl, BitVec.xor_eq_zero_iff⟩

/-- Settles O59: a line that is well formed answers `answerTo`, a `read` with one value and a `dump` with twelve. -/
theorem compareFormsAnswerOkOrTheDifference : Obligations.CompareFormsAnswerOkOrTheDifference := by
  refine ⟨fun n r e v hreads => ?_, fun n es vs hes hvs => ?_⟩
  · have hanswer := Line.answer_read (Line.wf_of_expand_ne_nil hreads)
    refine ⟨rfl, hanswer none [v], ?_, fun hne => ?_⟩
    · rw [hanswer, Option.some_inj, Option.map_some, answerTo_some_eq_ok_iff, List.singleton_inj]
    · rw [hanswer, Option.map_some, answerTo_some_of_ne (mt List.singleton_inj.mp hne)]
      rfl
  · have hanswer := Line.answer_dump (n := n) (expected := some es) (by rw [Line.wf_dump_compare, hes]; rfl)
    refine ⟨Line.answer_dump rfl vs, ?_, fun hne => ⟨List.zipWith (· ^^^ ·) vs es, ?_, ?_, ?_⟩⟩
    · rw [hanswer, Option.some_inj, answerTo_some_eq_ok_iff]
    · rw [hanswer, answerTo_some_of_ne hne]
    · rw [List.length_zipWith, hvs, hes, Nat.min_self]
    · exact fun k v e hv he => getElem?_zipWith_xor hv he

end Sys2Proof.Machine

/-! The statements that rest on spec/70_reset_and_hazards.md: the caller's contract (R205, with the reserved selects of
30_encoding.md R57) and the state after reset (R191). -/

namespace Sys2Proof.Machine

/-! ### The windows under an operation -/

/-- The windows of a pair are those of a unit and of the other one. -/
theorem State.windowsInOrder_iff (s : State) (n : UnitId) :
    s.windowsInOrder = true ↔
      (s.unit n).windowsInOrder = true ∧ (s.unit n.other).windowsInOrder = true := by
  rw [State.windowsInOrder, Bool.and_eq_true]
  cases n with
  | unit0 => rfl
  | unit1 => exact and_comm

theorem windowsInOrder_of_writeUnit {n : UnitId} {f : InterpUnit → InterpUnit} {s t : State}
    (h : writeUnit n f s = .next t) (hf : (f (s.unit n)).windowsInOrder = true) :
    (t.unit n).windowsInOrder = true := by
  obtain ⟨hunit, -⟩ := writeUnit_inv h
  rw [hunit, hf]

/-- A read writes no control word; a pop's writeback reaches the accumulators only (43_read_ops.md R145). -/
theorem windowsInOrder_of_exec_read {i : Instr} {s t : State} (h : exec i s = .next t) (hread : i.isWrite = false)
    (hwindows : (s.unit i.unitOf).windowsInOrder = true) : (t.unit i.unitOf).windowsInOrder = true := by
  obtain ⟨_, -, hwrite, -⟩ | ⟨_, hf, -⟩ | ⟨_, hf, -⟩ | ⟨_, hf, -⟩ := exec_cases i s
  · exact absurd hwrite (by simp [hread])
  all_goals rw [hf] at h
  · rw [readStored_inv h, State.drive_unit, hwindows]
  · obtain ⟨-, e, -, rfl⟩ := readEngine_inv h
    rw [State.drive_unit, hwindows]
  · obtain ⟨-, e, -, rfl⟩ := popEngine_inv h
    rw [State.drive_unit, State.unit_setUnit]
    exact hwindows

/-- An operation that writes no inverted window leaves the windows of its unit in order: a control write replaces one
window by the one it names, and no other operation reaches a control word (70_reset_and_hazards.md R205). -/
theorem unit_windowsInOrder_of_exec {i : Instr} {s t : State} (h : exec i s = .next t)
    (hkeeps : keepsWindows i = true) (hwindows : (s.unit i.unitOf).windowsInOrder = true) :
    (t.unit i.unitOf).windowsInOrder = true := by
  cases i with
  | writeCtrl0 _ w =>
    obtain ⟨-, h1⟩ := Bool.and_eq_true_iff.mp hwindows
    exact windowsInOrder_of_writeUnit (f := fun u => { u with ctrl0 := configOfWord w }) h
      (Bool.and_eq_true_iff.mpr ⟨hkeeps, h1⟩)
  | writeCtrl1 _ w =>
    obtain ⟨h0, -⟩ := Bool.and_eq_true_iff.mp hwindows
    exact windowsInOrder_of_writeUnit (f := fun u => { u with ctrl1 := configOfWord w }) h
      (Bool.and_eq_true_iff.mpr ⟨h0, hkeeps⟩)
  | writeAccum0 _ v => exact windowsInOrder_of_writeUnit (f := fun u => { u with accum0 := v }) h hwindows
  | writeAccum1 _ v => exact windowsInOrder_of_writeUnit (f := fun u => { u with accum1 := v }) h hwindows
  | writeBase0 _ v => exact windowsInOrder_of_writeUnit (f := fun u => { u with base0 := v }) h hwindows
  | writeBase1 _ v => exact windowsInOrder_of_writeUnit (f := fun u => { u with base1 := v }) h hwindows
  | writeBase2 _ v => exact windowsInOrder_of_writeUnit (f := fun u => { u with base2 := v }) h hwindows
  | writeAdd0 _ v => exact windowsInOrder_of_writeUnit (f := fun u => { u with accum0 := u.accum0 + v }) h hwindows
  | writeAdd1 _ v => exact windowsInOrder_of_writeUnit (f := fun u => { u with accum1 := u.accum1 + v }) h hwindows
  | writeBase01 n v => exact windowsInOrder_of_writeUnit (f := packedBases (s.params.capOf n) v) h hwindows
  | _ => exact windowsInOrder_of_exec_read h rfl hwindows

/-- The same for the pair: the other unit is in the operation's frame (20_memory.md R34). -/
theorem windowsInOrder_of_exec {i : Instr} {s t : State} (h : exec i s = .next t) (hkeeps : keepsWindows i = true)
    (hwindows : s.windowsInOrder = true) : t.windowsInOrder = true := by
  obtain ⟨hunit, hother⟩ := (s.windowsInOrder_iff i.unitOf).mp hwindows
  obtain ⟨-, hframe, -⟩ := exec_unitBecomes h
  refine (t.windowsInOrder_iff i.unitOf).mpr ⟨unit_windowsInOrder_of_exec h hkeeps hunit, ?_⟩
  rw [hframe, hother]

/-! ### The caller's contract -/

/-- A presentation keeps the contract when it is an operation that writes no inverted window (30_encoding.md R57,
70_reset_and_hazards.md R205). -/
theorem presentationKeepsContract_iff (p : Presentation) :
    presentationKeepsContract p = true ↔ ∃ i, decode p = .ok i ∧ keepsWindows i = true := by
  cases h : decode p <;> simp [presentationKeepsContract, h]

theorem callerContract_iff (s : State) :
    s.callerContract = true ↔
      s.windowsInOrder = true ∧ ∀ p ∈ s.pending, presentationKeepsContract p = true := by
  rw [State.callerContract, Bool.and_eq_true, List.all_eq_true]

/-- With a presentation pending, the contract says what that presentation is, and holds once it has been made. -/
theorem callerContract_of_cons {s : State} {p : Presentation} {rest : List Presentation}
    (hpending : s.pending = p :: rest) (hs : s.callerContract = true) :
    (∃ i, decode p = .ok i ∧ keepsWindows i = true) ∧
      ({ s with pending := rest } : State).callerContract = true := by
  obtain ⟨hwindows, hall⟩ := (callerContract_iff s).mp hs
  rw [hpending, List.forall_mem_cons] at hall
  obtain ⟨hp, hrest⟩ := hall
  exact ⟨(presentationKeepsContract_iff p).mp hp, (callerContract_iff _).mpr ⟨hwindows, hrest⟩⟩

/-- Under the contract an operation that writes no inverted window completes, since the engine is available, and leaves
the contract as it was. -/
theorem exec_keeps_callerContract {i : Instr} {s : State} (hkeeps : keepsWindows i = true)
    (hs : s.callerContract = true) : ∃ t, exec i s = .next t ∧ t.callerContract = true := by
  obtain ⟨hwindows, hpending⟩ := (callerContract_iff s).mp hs
  obtain ⟨hunit, -⟩ := (s.windowsInOrder_iff i.unitOf).mp hwindows
  obtain ⟨t, ht⟩ := exec_next_of_engine_available (.inr hunit)
  obtain ⟨-, -, -, hframe, -⟩ := exec_unitBecomes ht
  refine ⟨t, ht, (callerContract_iff t).mpr ⟨windowsInOrder_of_exec ht hkeeps hwindows, ?_⟩⟩
  rw [hframe]
  exact hpending

/-- Settles O52: of a step's three cases, an idle step changes nothing, an operation the contract allows completes and
keeps it, and a reserved select is none the contract allows. -/
theorem callerContractIsKeptAndNeverRefused : Obligations.CallerContractIsKeptAndNeverRefused := by
  intro s hs
  obtain ⟨-, hstep⟩ | ⟨p, rest, i, hpending, hdecode, hstep⟩ | ⟨p, rest, hpending, hdecode, -⟩ := step_cases s
  · exact ⟨s, hstep, hs⟩
  · obtain ⟨⟨j, hj, hkeeps⟩, hrest⟩ := callerContract_of_cons hpending hs
    obtain rfl : i = j := Except.ok.inj (hdecode.symm.trans hj)
    rw [hstep]
    exact exec_keeps_callerContract hkeeps hrest
  · obtain ⟨⟨j, hj, -⟩, -⟩ := callerContract_of_cons hpending hs
    rw [hdecode] at hj
    cases hj

/-! ### Runs -/

/-- A run's first step, when it answers a next state. -/
theorem run_succ_of_step {M : Host.Core} {s t : M.State} (h : M.step s = .next t) (k : Nat) :
    M.run (k + 1) s = M.run k t := by
  rw [Host.Core.run, h]

/-- What a step never refuses and always keeps, a run of any length does too. -/
theorem run_keeps {P : State → Prop} (hstep : ∀ s, P s → ∃ t, step s = .next t ∧ P t) (k : Nat) :
    ∀ s, P s → ∃ t, core.run k s = .next t ∧ P t := by
  induction k with
  | zero => exact fun s hs => ⟨s, rfl, hs⟩
  | succ k ih =>
    intro s hs
    obtain ⟨t, ht, hPt⟩ := hstep s hs
    rw [run_succ_of_step (M := core) ht]
    exact ih t hPt

/-- Settles O53: the contract is such a property, by O52. -/
theorem runsUnderTheContractAreNeverRefused : Obligations.RunsUnderTheContractAreNeverRefused := by
  intro k s hs
  obtain ⟨t, ht, -⟩ := run_keeps callerContractIsKeptAndNeverRefused k s hs
  exact ⟨t, ht⟩

/-! ### The state after reset -/

@[simp] theorem State.reset_unit (n : UnitId) : State.reset.unit n = InterpUnit.reset := by cases n <;> rfl
@[simp] theorem State.reset_pending : State.reset.pending = [] := rfl

/-- The window of control word 0 is bit 0 alone, which is in order (10_state.md R24). -/
theorem InterpUnit.reset_windowsInOrder : InterpUnit.reset.windowsInOrder = true := by decide

/-- Settles O54: both units hold the reset registers, and nothing is pending (logs 4, 18). -/
theorem resetMeetsTheCallerContract : Obligations.ResetMeetsTheCallerContract := by
  refine (callerContract_iff _).mpr ⟨(State.windowsInOrder_iff _ .unit0).mpr ?_, by simp⟩
  simp [InterpUnit.reset_windowsInOrder]

/-- The control record of control word 0 (10_state.md R24). -/
theorem configOfWord_zero : configOfWord 0#32 = CtrlConfig.zero := by decide

@[simp] theorem InterpUnit.reset_ctrl (i : Lane) : InterpUnit.reset.ctrl i = CtrlConfig.zero := by cases i <;> rfl
@[simp] theorem InterpUnit.reset_base (i : Lane) : InterpUnit.reset.base i = 0#32 := by cases i <;> rfl
@[simp] theorem laneInput_reset (i : Lane) : laneInput InterpUnit.reset i = 0#32 := by cases i <;> rfl

section ResetResults

variable (g : Gen) (cap : Cap) (div : BlendDiv) (i : Lane)

/-- Zeros shifted by 0 are zeros in both generations (41_engine.md R83). -/
@[simp] theorem laneShifted_reset : laneShifted g InterpUnit.reset i = 0#32 := by
  rw [laneShifted_of_shift_zero g (by rw [InterpUnit.reset_ctrl]; rfl), laneInput_reset]

@[simp] theorem laneSigned_reset : laneSigned g InterpUnit.reset i = 0#32 := by
  simp [laneSigned, laneMasked, CtrlConfig.zero]

@[simp] theorem laneOverflow_reset : laneOverflow g InterpUnit.reset i = false := by
  simp [laneOverflow]

@[simp] theorem laneAdd_reset : laneAdd g InterpUnit.reset i = 0#32 := by
  simp [laneAdd]

/-- Control word 0 asks for neither mode, whatever the unit can do (41_engine.md R81). -/
@[simp] theorem doClamp_reset : doClamp cap InterpUnit.reset = false := rfl
@[simp] theorem doBlend_reset : doBlend cap InterpUnit.reset = false := rfl

@[simp] theorem forceBits_zero : forceBits CtrlConfig.zero = 0#32 := by decide

/-- On the reset registers every stage of the engine gives 0, whatever the parameters (70_reset_and_hazards.md R191). -/
theorem engineResult_reset :
    engineResult g cap div InterpUnit.reset = ⟨0#32, 0#32, 0#32, 0#32, 0#32, false, false, false⟩ := by
  have hctrl0 : InterpUnit.reset.ctrl0 = CtrlConfig.zero := rfl
  have hctrl1 : InterpUnit.reset.ctrl1 = CtrlConfig.zero := rfl
  have hbase2 : InterpUnit.reset.base2 = 0#32 := rfl
  simp [engineResult, lane0Present, lane1Present, fullResult, unitOverflow, hctrl0, hctrl1, hbase2]

end ResetResults

/-- Settles O55: the registers are control word 0's and zeros, and the engine has the result of `engineResult_reset`. -/
theorem resetRegistersAndResultsAreZeroAndBlendTruncates :
    Obligations.ResetRegistersAndResultsAreZeroAndBlendTruncates := by
  refine ⟨rfl, fun n g cap div => ⟨?registers, rfl, ?results⟩⟩
  case registers =>
    rw [State.reset_unit, ← configOfWord, configOfWord_zero]
    rfl
  case results =>
    rw [State.reset_unit, engine_of_windowsInOrder g cap div InterpUnit.reset_windowsInOrder, engineResult_reset]

end Sys2Proof.Machine

/-! The statements about all operations at once and those left of the other files: decoding against encoding
(spec/30_encoding.md R54 to R57), the primitives (spec/00_scope.md section 5.1), what changes each register
(spec/10_state.md R12 to R18), the control and the packed writes (spec/42_write_ops.md R115 to R119), the peeks and the
lane pops (spec/43_read_ops.md R137 to R147). -/

namespace Sys2Proof

/-! ### Decoding against encoding -/

/-- The signal `n` that was read is the one that is put back (30_encoding.md R54). -/
@[simp] theorem UnitId.toBit_ofBit (b : BitVec 1) : (UnitId.ofBit b).toBit = b := by
  obtain rfl | rfl := BitVec.eq_zero_or_eq_one b <;> rfl

/-- Presentations agree when their three signals do. -/
theorem Presentation.eq_of_signals {p q : Presentation} (hn : p.n = q.n) (hsel : p.sel.toNat = q.sel.toNat)
    (hwdata : p.wdata = q.wdata) : p = q := by
  cases p
  cases q
  simp_all [BitVec.toNat_inj]

/-- A presentation that decodes is its operation's encoding, but for the data word of a read, which the unit ignores
and the encoder replaces by 0 (30_encoding.md R54, R55; log 23). -/
theorem encode_of_decode {p : Presentation} {i : Instr} (h : decode p = .ok i) :
    encode i = { p with wdata := if i.isWrite then p.wdata else 0#32 } := by
  unfold decode at h
  dsimp only at h
  split at h
  case h_26 => cases h
  all_goals
    next hsel =>
      obtain rfl := Except.ok.inj h
      exact Presentation.eq_of_signals (UnitId.toBit_ofBit p.n) hsel.symm rfl

/-- Settles O1: `decode_encode` one way, and the other way `encode_of_decode` read signal by signal. -/
theorem decodeOfEncodeIsTheOperation : Obligations.DecodeOfEncodeIsTheOperation := by
  refine ⟨fun i _ => ⟨encode_wf i, decode_encode i⟩, fun p i hdecode => ?_⟩
  rw [encode_of_decode hdecode]
  exact ⟨rfl, rfl, fun hwrite => if_pos hwrite⟩

/-- A presentation that decodes has its operation's select, which is no reserved one. -/
theorem wf_of_decode {p : Presentation} {i : Instr} (h : decode p = .ok i) : p.wf = true := by
  have hwf := encode_wf i
  rw [encode_of_decode h] at hwf
  exact hwf

/-- A presentation that is rejected has one of the selects the decoder's table leaves out (30_encoding.md R57). -/
theorem not_wf_of_decode_error {p : Presentation} {e : DecodeError} (h : decode p = .error e) : p.wf = false := by
  have hreserved : selReserved p.sel = true := by
    have hsel : p.sel.toNat < 32 := p.sel.isLt
    rw [selReserved_iff]
    unfold decode at h
    dsimp only at h
    split at h
    case h_26 =>
      simp only [imp_false] at *
      omega
    all_goals cases h
  rw [Presentation.wf, hreserved, Bool.not_true]

/-- The well-formed presentations are those that stand for an operation (30_encoding.md R55, R57). -/
theorem wf_iff_decode_ok (p : Presentation) : p.wf = true ↔ ∃ i, decode p = .ok i := by
  refine ⟨fun hwf => ?_, fun ⟨_, hi⟩ => wf_of_decode hi⟩
  cases h : decode p with
  | ok i => exact ⟨i, rfl⟩
  | error e => rw [not_wf_of_decode_error h] at hwf; cases hwf

/-- The reserved selects written out (20_memory.md R32, 30_encoding.md R57). -/
theorem selReserved_iff_mem :
    ∀ sel : BitVec 5,
      selReserved sel = true ↔ sel ∈ [0x0F#5, 0x15#5, 0x16#5, 0x17#5, 0x18#5, 0x19#5, 0x1A#5] := by
  decide

/-- Settles O2: a presentation either decodes or is rejected, and is well formed in the first case only. -/
theorem everySelectIsAnOperationOrReserved : Obligations.EverySelectIsAnOperationOrReserved := by
  refine fun p => ⟨wf_iff_decode_ok p, ⟨decode_of_not_wf, not_wf_of_decode_error⟩, ?_⟩
  rw [Presentation.wf, Bool.not_eq_false', selReserved_iff_mem]

/-- Settles O3: each written-out presentation is an operation's encoding, the second but for its data word. -/
theorem presentationsDecodeAsTheTableSays : Obligations.PresentationsDecodeAsTheTableSays :=
  ⟨decode_encode (.readAccum0 .unit0), decode_encode_of_read (i := .readBase1 .unit1) rfl 7#32,
    decode_encode (.readPop2 .unit1), decode_encode (.readPeek0 .unit0), decode_encode (.readCtrl0 .unit0),
    decode_encode (.readPeekraw0 .unit0), decode_encode (.writeAccum1 .unit1 5#32),
    decode_encode (.writeBase2 .unit0 9#32), decode_encode (.writeCtrl0 .unit0 0x407C00#32),
    decode_encode (.writeAdd0 .unit0 3#32), decode_encode (.writeBase01 .unit0 0x8000FFFF#32)⟩

end Sys2Proof

namespace Sys2Proof.Machine

/-! ### The primitives -/

/-- Settles O6: a shift right divides, and the rotate's value by `toNat_ror32` is in range already. -/
theorem shiftAndRotateAreTheirArithmetic : Obligations.ShiftAndRotateAreTheirArithmetic := by
  intro x n
  refine ⟨?shift, ?rotate⟩
  case shift => rw [lsr32, BitVec.toNat_ushiftRight, Nat.shiftRight_eq_div_pow]
  case rotate => rw [← toNat_ror32, Nat.mod_eq_of_lt (ror32 x n).isLt]

/-- Settles O8: `getLsbD_window` and `getLsbD_above` say it bit by bit. -/
theorem windowAndAboveSetExactlyTheirBits : Obligations.WindowAndAboveSetExactlyTheirBits :=
  ⟨fun _ _ k h => getLsbD_window h k, getLsbD_above⟩

/-! ### The mode bits -/

/-- A blend-capable unit never clamps (41_engine.md R81). -/
theorem doClamp_blendCapable (u : InterpUnit) : doClamp .blendCapable u = false := by
  simp [doClamp]

/-- A clamp-capable unit never blends (41_engine.md R81). -/
theorem doBlend_clampCapable (u : InterpUnit) : doBlend .clampCapable u = false := by
  simp [doBlend]

/-- Settles O25: each bit is read only to decide its mode, which the capability rules out. -/
theorem modeBitsWithoutEffect : Obligations.ModeBitsWithoutEffect := by
  intro g div u a b
  refine ⟨?clamp, ?blend⟩
  case clamp =>
    simp only [engine, engineResult, lane0Present, doClamp_blendCapable]
    rfl
  case blend =>
    simp only [engine, engineResult, fullResult, lane0Present, lane1Present, doBlend_clampCapable]
    rfl

/-! ### What changes a register -/

/-- Unit `n`'s registers become `u'` from `u` by the operation `i`: as they were, or with the registers replaced that `i`
names, or after a pop's writeback (10_state.md R12, R13). -/
inductive Changes (n : UnitId) (u : InterpUnit) : Instr → InterpUnit → Prop
  | kept (i : Instr) : Changes n u i u
  | writeAccum0 (v : Word) : Changes n u (.writeAccum0 n v) { u with accum0 := v }
  | writeAccum1 (v : Word) : Changes n u (.writeAccum1 n v) { u with accum1 := v }
  | writeBase0 (v : Word) : Changes n u (.writeBase0 n v) { u with base0 := v }
  | writeBase1 (v : Word) : Changes n u (.writeBase1 n v) { u with base1 := v }
  | writeBase2 (v : Word) : Changes n u (.writeBase2 n v) { u with base2 := v }
  | writeCtrl0 (w : Word) : Changes n u (.writeCtrl0 n w) { u with ctrl0 := configOfWord w }
  | writeCtrl1 (w : Word) : Changes n u (.writeCtrl1 n w) { u with ctrl1 := configOfWord w }
  | writeAdd0 (v : Word) : Changes n u (.writeAdd0 n v) { u with accum0 := u.accum0 + v }
  | writeAdd1 (v : Word) : Changes n u (.writeAdd1 n v) { u with accum1 := u.accum1 + v }
  | writeBase01 (cap : Cap) (v : Word) : Changes n u (.writeBase01 n v) (packedBases cap v u)
  | readPop0 (e : EngineResult) : Changes n u (.readPop0 n) (writeback e u)
  | readPop1 (e : EngineResult) : Changes n u (.readPop1 n) (writeback e u)
  | readPop2 (e : EngineResult) : Changes n u (.readPop2 n) (writeback e u)

/-- After a write the named unit holds what the write made of it (42_write_ops.md R109). -/
theorem unit_of_writeUnit {n : UnitId} {f : InterpUnit → InterpUnit} {s t : State}
    (h : writeUnit n f s = .next t) : t.unit n = f (s.unit n) := by
  obtain ⟨hunit, -⟩ := writeUnit_inv h
  exact hunit

/-- After a pop the named unit is as it was but for a writeback (43_read_ops.md R145). -/
theorem unit_of_popEngine {n : UnitId} {f : EngineResult → Word} {s t : State} (h : popEngine n f s = .next t) :
    ∃ e, t.unit n = writeback e (s.unit n) := by
  obtain ⟨-, e, -, rfl⟩ := popEngine_inv h
  exact ⟨e, by simp⟩

/-- A read that is no pop leaves every unit as it was (43_read_ops.md R129). -/
theorem unit_of_exec_read {i : Instr} {s t : State} (hread : i.isWrite = false) (hpop : i.isPop = false)
    (h : exec i s = .next t) (n : UnitId) : t.unit n = s.unit n := by
  obtain ⟨v, rfl⟩ := exec_eq_drive_of_read hread hpop h
  exact State.drive_unit s n v

/-- What an operation that completes does to the registers of its own unit. -/
theorem changes_unitOf_of_exec {i : Instr} {s t : State} (h : exec i s = .next t) :
    Changes i.unitOf (s.unit i.unitOf) i (t.unit i.unitOf) := by
  cases i with
  | writeAccum0 n v => exact unit_of_writeUnit ((exec_writeAccum0 _ _ s).symm.trans h) ▸ .writeAccum0 v
  | writeAccum1 n v => exact unit_of_writeUnit ((exec_writeAccum1 _ _ s).symm.trans h) ▸ .writeAccum1 v
  | writeBase0 n v => exact unit_of_writeUnit ((exec_writeBase0 _ _ s).symm.trans h) ▸ .writeBase0 v
  | writeBase1 n v => exact unit_of_writeUnit ((exec_writeBase1 _ _ s).symm.trans h) ▸ .writeBase1 v
  | writeBase2 n v => exact unit_of_writeUnit ((exec_writeBase2 _ _ s).symm.trans h) ▸ .writeBase2 v
  | writeCtrl0 n w => exact unit_of_writeUnit ((exec_writeCtrl0 _ _ s).symm.trans h) ▸ .writeCtrl0 w
  | writeCtrl1 n w => exact unit_of_writeUnit ((exec_writeCtrl1 _ _ s).symm.trans h) ▸ .writeCtrl1 w
  | writeAdd0 n v => exact unit_of_writeUnit ((exec_writeAdd0 _ _ s).symm.trans h) ▸ .writeAdd0 v
  | writeAdd1 n v => exact unit_of_writeUnit ((exec_writeAdd1 _ _ s).symm.trans h) ▸ .writeAdd1 v
  | writeBase01 n v => exact unit_of_writeUnit h ▸ .writeBase01 (s.params.capOf n) v
  | readPop0 n => obtain ⟨e, hunit⟩ := unit_of_popEngine h; exact hunit ▸ .readPop0 e
  | readPop1 n => obtain ⟨e, hunit⟩ := unit_of_popEngine h; exact hunit ▸ .readPop1 e
  | readPop2 n => obtain ⟨e, hunit⟩ := unit_of_popEngine h; exact hunit ▸ .readPop2 e
  | _ => rw [unit_of_exec_read rfl rfl h]; exact .kept _

/-- What an operation that completes does to the registers of any unit: the one it does not name is in its frame
(20_memory.md R34). -/
theorem changes_of_exec {i : Instr} {s t : State} (h : exec i s = .next t) (n : UnitId) :
    Changes n (s.unit n) i (t.unit n) := by
  obtain rfl | rfl : n = i.unitOf ∨ n = i.unitOf.other := by
    cases n <;> cases i.unitOf <;> simp [UnitId.other]
  · exact changes_unitOf_of_exec h
  · obtain ⟨-, hother, -⟩ := exec_unitBecomes h
    rw [hother]
    exact .kept i

section Changes

variable {n : UnitId} {u u' : InterpUnit} {i : Instr} (h : Changes n u i u')
include h

/-- The writers of each accumulator, and the pops (10_state.md R12). -/
theorem Changes.accums :
    (u'.accum0 ≠ u.accum0 →
      (∃ v, i = .writeAccum0 n v ∨ i = .writeAdd0 n v) ∨ i = .readPop0 n ∨ i = .readPop1 n ∨ i = .readPop2 n) ∧
    (u'.accum1 ≠ u.accum1 →
      (∃ v, i = .writeAccum1 n v ∨ i = .writeAdd1 n v) ∨ i = .readPop0 n ∨ i = .readPop1 n ∨ i = .readPop2 n) := by
  cases h <;> simp [packedBases]

/-- The writers of each base (10_state.md R13). -/
theorem Changes.bases :
    (u'.base0 ≠ u.base0 → ∃ v, i = .writeBase0 n v ∨ i = .writeBase01 n v) ∧
    (u'.base1 ≠ u.base1 → ∃ v, i = .writeBase1 n v ∨ i = .writeBase01 n v) ∧
    (u'.base2 ≠ u.base2 → ∃ v, i = .writeBase2 n v) := by
  cases h <;> simp [packedBases]

/-- The writers of each control record (10_state.md section 2). -/
theorem Changes.ctrls :
    (u'.ctrl0 ≠ u.ctrl0 → ∃ w, i = .writeCtrl0 n w) ∧ (u'.ctrl1 ≠ u.ctrl1 → ∃ w, i = .writeCtrl1 n w) := by
  cases h <;> simp [packedBases]

end Changes

/-- Settles O40: of all changes of a unit's registers, by `Changes.accums`. -/
theorem accumulatorsChangeOnlyByTheirWritersAndPops : Obligations.AccumulatorsChangeOnlyByTheirWritersAndPops :=
  fun _ _ _ n h => (changes_of_exec h n).accums

/-- Settles O41: likewise, by `Changes.bases`. -/
theorem basesChangeOnlyByTheirWriters : Obligations.BasesChangeOnlyByTheirWriters :=
  fun _ _ _ n h => (changes_of_exec h n).bases

/-- Settles O42: likewise, by `Changes.ctrls`. -/
theorem controlRecordsChangeOnlyByTheirWrites : Obligations.ControlRecordsChangeOnlyByTheirWrites :=
  fun _ _ _ n h => (changes_of_exec h n).ctrls

/-! ### The control writes and the packed write -/

/-- Settles O30: each is an operation of the table, a `write` line and one write of its record, which holds nothing of
the word's bits 31:23. -/
theorem writeCtrlStoresTheConfigurationFields : Obligations.WriteCtrlStoresTheConfigurationFields :=
  ⟨fun n w s =>
    ⟨decode_encode (.writeCtrl0 n w), Line.expand_write rfl, exec_next_of_eq_writeUnit (exec_writeCtrl0 n w s),
      decode_encode (.writeCtrl1 n w), Line.expand_write rfl, exec_next_of_eq_writeUnit (exec_writeCtrl1 n w s)⟩,
    fun w => (configOfWord_and_configMask w).symm⟩

theorem exec_writeBase01 (n : UnitId) (v : Word) (s : State) :
    exec (.writeBase01 n v) s = writeUnit n (packedBases (s.params.capOf n) v) s := rfl

/-- A half widened is itself, with the upper 16 bits set when it is signed and its top bit is (42_write_ops.md R119;
log 27). -/
theorem toNat_widenHalf (signed : Bool) (x : BitVec 16) :
    (widenHalf signed x).toNat =
      x.toNat + if signed = true ∧ x.getLsbD 15 = true then 0xFFFF0000 else 0 := by
  have hzero : (x.setWidth 32).toNat = x.toNat := BitVec.toNat_setWidth_of_le (by decide)
  cases signed with
  | false => simp [widenHalf, hzero]
  | true => simp [widenHalf, BitVec.toNat_signExtend, hzero, BitVec.msb_eq_getLsbD_last]

/-- The low half of a packed word as a number (30_encoding.md R53). -/
theorem toNat_packedLow (v : Word) : (packedLow v).toNat = v.toNat % 2 ^ 16 := by
  simp [packedLow]

/-- The high half of a packed word as a number (30_encoding.md R53). -/
theorem toNat_packedHigh (v : Word) : (packedHigh v).toNat = v.toNat / 2 ^ 16 := by
  have hv : v.toNat < 2 ^ 32 := v.isLt
  rw [packedHigh, toNat_extractLsb'_eq_div_mod]
  omega

/-- Settles O32: `WRITE_BASE01` is an operation of the table, a `write` line and one write of both bases, whose values
are those of the widened halves. -/
theorem writeBase01WidensBothHalves : Obligations.WriteBase01WidensBothHalves := by
  intro n v s u signed0
  obtain ⟨t, hexec, hunit⟩ := exec_next_of_eq_writeUnit (exec_writeBase01 n v s)
  have hsigned0 : (if doBlend (s.params.capOf n) u then u.ctrl1.isSigned else u.ctrl0.isSigned) = signed0 := by
    simp only [doBlend_iff, signed0]
  refine ⟨decode_encode (.writeBase01 n v), Line.expand_write rfl, t, _, _, hexec, hunit, ?low, ?high⟩
  case low =>
    rw [toNat_widenHalf, toNat_packedLow, hsigned0]
    simp [packedLow]
  case high =>
    rw [toNat_widenHalf, toNat_packedHigh]
    simp [packedHigh, u]

/-! ### The peeks and the lane pops -/

/-- Settles O36: each is an operation of the table, a `read` line and a read of one field of the engine's result. -/
theorem peeksReturnTheEngineResults : Obligations.PeeksReturnTheEngineResults :=
  fun n x _ =>
    ⟨decode_encode_of_read (i := .readPeek0 n) rfl x, Line.expand_read rfl,
      decode_encode_of_read (i := .readPeek1 n) rfl x, Line.expand_read rfl,
      decode_encode_of_read (i := .readPeek2 n) rfl x, Line.expand_read rfl,
      decode_encode_of_read (i := .readPeekraw0 n) rfl x, Line.expand_read rfl,
      decode_encode_of_read (i := .readPeekraw1 n) rfl x, Line.expand_read rfl,
      fun hwindows =>
        ⟨_, engineOf_of_inOrder hwindows,
          readEngine_of_inOrder (fun e => e.peek0) hwindows, readEngine_of_inOrder (fun e => e.peek1) hwindows,
          readEngine_of_inOrder (fun e => e.peek2) hwindows, readEngine_of_inOrder (fun e => e.peekraw0) hwindows,
          readEngine_of_inOrder (fun e => e.peekraw1) hwindows⟩⟩

theorem exec_readPop0 (n : UnitId) (s : State) : exec (.readPop0 n) s = popEngine n (fun e => e.peek0) s := rfl
theorem exec_readPop1 (n : UnitId) (s : State) : exec (.readPop1 n) s = popEngine n (fun e => e.peek1) s := rfl

/-- Settles O37: each is an operation of the table, a `read` line and a pop of its lane's presentation; the two write
the same registers back, for they have the same result of the engine. -/
theorem lanePopsReturnAndWriteBack : Obligations.LanePopsReturnAndWriteBack := by
  intro n x s
  refine ⟨decode_encode_of_read (i := .readPop0 n) rfl x, Line.expand_read rfl,
    decode_encode_of_read (i := .readPop1 n) rfl x, Line.expand_read rfl, fun hwindows => ?_⟩
  obtain ⟨e, t0, hengine, hexec0, hbecomes0⟩ := exec_next_of_eq_popEngine (exec_readPop0 n s) hwindows
  obtain ⟨e', t1, hengine', hexec1, hbecomes1⟩ := exec_next_of_eq_popEngine (exec_readPop1 n s) hwindows
  obtain rfl : e = e' := Option.some.inj (hengine.symm.trans hengine')
  refine ⟨e, t0, t1, hengine, hexec0, hexec1, hbecomes0, ?_⟩
  obtain ⟨hunit0, -⟩ := hbecomes0
  rw [hunit0]
  exact hbecomes1

end Sys2Proof.Machine
